-- ==== Sys2Proof/Word.lean ====
section
/-!
DEFINITION. The machine's words: the widths of 00_scope.md R4 and R5 (all quantities are unsigned), and the
names used for them. Arithmetic on them is core's `BitVec` arithmetic, which wraps modulo 2 to the width.
-/

namespace Sys2Proof

/-- A byte: a general register, a timer, a memory cell (10_state.md R10, R17, R18, R24). -/
abbrev Byte := BitVec 8

/-- A 16-bit word: `I`, `pc`, a return address, an instruction word (10_state.md R12, R13, R16; 30_encoding.md R60). -/
abbrev Word := BitVec 16

/-- A 4-bit field of an instruction word (30_encoding.md R61). -/
abbrev Nibble := BitVec 4

/-- A 12-bit immediate address `nnn` (30_encoding.md R61, R63). -/
abbrev Addr12 := BitVec 12

/-- A general register's index, 0 to 15 (10_state.md R10). -/
abbrev Reg := Fin 16

/-- A key's index, 0 to 15 (10_state.md R28, R29). -/
abbrev Key := Fin 16

/-- `VF`, the flag register, is `V[15]` (10_state.md R11, decision D3; PRESUMED, log 3). -/
abbrev flagReg : Reg := 15

end Sys2Proof
end

