-- ==== Sys2Proof/Syntax.lean ====
section
/-!
DEFINITION. The instructions: one constructor per row of spec/opcode_table.json, in the table's order
(30_encoding.md R65), each with the fields of its format (R61, R62).
-/

namespace Sys2Proof

/-- The 35 instructions of 30_encoding.md R65. `x` and `y` are register indices, `kk`, `nnn` and `n` immediates. -/
inductive Instr where
  /-- row 1, `00E0` `CLS` -/
  | cls
  /-- row 2, `00EE` `RET` -/
  | ret
  /-- row 3, `0nnn` `SYS nnn`, not `00E0` and not `00EE` (R66) -/
  | sys (nnn : Addr12)
  /-- row 4, `1nnn` `JP nnn` -/
  | jp (nnn : Addr12)
  /-- row 5, `2nnn` `CALL nnn` -/
  | call (nnn : Addr12)
  /-- row 6, `Bnnn` `JP V0, nnn` -/
  | jpV0 (nnn : Addr12)
  /-- row 7, `3xkk` `SE Vx, kk` -/
  | seImm (x : Reg) (kk : Byte)
  /-- row 8, `4xkk` `SNE Vx, kk` -/
  | sneImm (x : Reg) (kk : Byte)
  /-- row 9, `5xy0` `SE Vx, Vy` -/
  | seReg (x y : Reg)
  /-- row 10, `9xy0` `SNE Vx, Vy` -/
  | sneReg (x y : Reg)
  /-- row 11, `6xkk` `LD Vx, kk` -/
  | ldImm (x : Reg) (kk : Byte)
  /-- row 12, `7xkk` `ADD Vx, kk` -/
  | addImm (x : Reg) (kk : Byte)
  /-- row 13, `8xy0` `LD Vx, Vy` -/
  | ldReg (x y : Reg)
  /-- row 14, `8xy1` `OR Vx, Vy` -/
  | or (x y : Reg)
  /-- row 15, `8xy2` `AND Vx, Vy` -/
  | and (x y : Reg)
  /-- row 16, `8xy3` `XOR Vx, Vy` -/
  | xor (x y : Reg)
  /-- row 17, `8xy4` `ADD Vx, Vy` -/
  | addReg (x y : Reg)
  /-- row 18, `8xy5` `SUB Vx, Vy` -/
  | sub (x y : Reg)
  /-- row 19, `8xy6` `SHR Vx`; the `y` field is decoded and not used (R69) -/
  | shr (x y : Reg)
  /-- row 20, `8xy7` `SUBN Vx, Vy` -/
  | subn (x y : Reg)
  /-- row 21, `8xyE` `SHL Vx`; the `y` field is decoded and not used (R69) -/
  | shl (x y : Reg)
  /-- row 22, `Annn` `LD I, nnn` -/
  | ldI (nnn : Addr12)
  /-- row 23, `Fx1E` `ADD I, Vx` -/
  | addI (x : Reg)
  /-- row 24, `Fx29` `LD F, Vx` -/
  | ldF (x : Reg)
  /-- row 25, `Cxkk` `RND Vx, kk` -/
  | rnd (x : Reg) (kk : Byte)
  /-- row 26, `Dxyn` `DRW Vx, Vy, n` -/
  | drw (x y : Reg) (n : Nibble)
  /-- row 27, `Ex9E` `SKP Vx` -/
  | skp (x : Reg)
  /-- row 28, `ExA1` `SKNP Vx` -/
  | sknp (x : Reg)
  /-- row 29, `Fx07` `LD Vx, DT` -/
  | ldVxDt (x : Reg)
  /-- row 30, `Fx0A` `LD Vx, K` -/
  | ldVxK (x : Reg)
  /-- row 31, `Fx15` `LD DT, Vx` -/
  | ldDtVx (x : Reg)
  /-- row 32, `Fx18` `LD ST, Vx` -/
  | ldStVx (x : Reg)
  /-- row 33, `Fx33` `LD B, Vx` -/
  | ldB (x : Reg)
  /-- row 34, `Fx55` `LD [I], Vx` -/
  | stRegs (x : Reg)
  /-- row 35, `Fx65` `LD Vx, [I]` -/
  | ldRegs (x : Reg)
  deriving DecidableEq, Repr

end Sys2Proof
end

