-- ==== Sys2Proof/WellFormed.lean ====
section
/-!
DEFINITION. Which instructions have a word. Every field is as wide as its field of the word, so the one thing to
check is 30_encoding.md R66: a `SYS` word is neither `CLS` nor `RET`.
-/

namespace Sys2Proof

/-- 30_encoding.md R66: `SYS nnn` is every word `0nnn` but `0x00E0` and `0x00EE`. -/
def Instr.wellFormed : Instr → Bool
  | .sys nnn => nnn != 0x0E0#12 && nnn != 0x0EE#12
  | .cls | .ret | .jp _ | .call _ | .jpV0 _ => true
  | .seImm _ _ | .sneImm _ _ | .seReg _ _ | .sneReg _ _ => true
  | .ldImm _ _ | .addImm _ _ | .ldReg _ _ | .or _ _ | .and _ _ | .xor _ _ => true
  | .addReg _ _ | .sub _ _ | .shr _ _ | .subn _ _ | .shl _ _ => true
  | .ldI _ | .addI _ | .ldF _ | .rnd _ _ | .drw _ _ _ | .skp _ | .sknp _ => true
  | .ldVxDt _ | .ldVxK _ | .ldDtVx _ | .ldStVx _ | .ldB _ | .stRegs _ | .ldRegs _ => true

/-- A well-formed instruction is one that some word encodes. -/
abbrev Instr.WellFormed (i : Instr) : Prop := i.wellFormed = true

end Sys2Proof
end

