-- ==== Sys2Proof/Decode.lean ====
section
/-!
DEFINITION. The decoder, the encoder, and the opcode map of 30_encoding.md: the fields (R61), the formats (R62), the
decode procedure (R64), the undefined words (R67, R68), and the map of R65 as a table. The numeric values other than
those of `CLS`, `RET`, `JP` and `CALL` are decision D1 (PRESUMED, log 2).
-/

namespace Sys2Proof

/-! ## Fields (R61) -/

/-- `op = w[15:12]`, the family. -/
def opField (w : Word) : Nibble := w.extractLsb' 12 4

/-- `x = w[11:8]`. -/
def xField (w : Word) : Reg := (w.extractLsb' 8 4).toFin

/-- `y = w[7:4]`. -/
def yField (w : Word) : Reg := (w.extractLsb' 4 4).toFin

/-- `n = w[3:0]`. -/
def nField (w : Word) : Nibble := w.extractLsb' 0 4

/-- `kk = w[7:0]`. -/
def kkField (w : Word) : Byte := w.extractLsb' 0 8

/-- `nnn = w[11:0]`. -/
def nnnField (w : Word) : Addr12 := w.extractLsb' 0 12

/-! ## Decoding (R64) -/

/-- Why a word or a byte sequence is no instruction. The first five are the undefined words of R67 and R68, and
executing one raises `DecodeFailure` (a next state, 60_exceptions.md R181; safe, decision D8). `tooShort` belongs to
byte sequences of fewer than two bytes, which a fetch never gives. -/
inductive DecodeReject where
  /-- `5xyn` with `n` not 0 (R68) -/
  | family5Nibble
  /-- family 8 with `n` in 8, 9, A, B, C, D, F (R67) -/
  | family8SubOp
  /-- `9xyn` with `n` not 0 (R68) -/
  | family9Nibble
  /-- family E with a low byte other than 9E, A1 (R67) -/
  | familyESubOp
  /-- family F with a low byte that names no operation (R67) -/
  | familyFSubOp
  /-- fewer than two bytes -/
  | tooShort
  deriving DecidableEq, Repr

/-- Family 0 is decoded by the whole word (R66). -/
def decodeFamily0 (w : Word) : Instr :=
  if w = 0x00E0#16 then .cls else if w = 0x00EE#16 then .ret else .sys (nnnField w)

/-- Family 8: the low nibble selects the operation (R64). -/
def decodeFamily8 (w : Word) : Except DecodeReject Instr :=
  match (nField w).toNat with
  | 0x0 => .ok (.ldReg (xField w) (yField w))
  | 0x1 => .ok (.or (xField w) (yField w))
  | 0x2 => .ok (.and (xField w) (yField w))
  | 0x3 => .ok (.xor (xField w) (yField w))
  | 0x4 => .ok (.addReg (xField w) (yField w))
  | 0x5 => .ok (.sub (xField w) (yField w))
  | 0x6 => .ok (.shr (xField w) (yField w))
  | 0x7 => .ok (.subn (xField w) (yField w))
  | 0xE => .ok (.shl (xField w) (yField w))
  | _ => .error .family8SubOp

/-- Family E: the low byte selects the operation (R64). -/
def decodeFamilyE (w : Word) : Except DecodeReject Instr :=
  match (kkField w).toNat with
  | 0x9E => .ok (.skp (xField w))
  | 0xA1 => .ok (.sknp (xField w))
  | _ => .error .familyESubOp

/-- Family F: the low byte selects the operation (R64). -/
def decodeFamilyF (w : Word) : Except DecodeReject Instr :=
  match (kkField w).toNat with
  | 0x07 => .ok (.ldVxDt (xField w))
  | 0x0A => .ok (.ldVxK (xField w))
  | 0x15 => .ok (.ldDtVx (xField w))
  | 0x18 => .ok (.ldStVx (xField w))
  | 0x1E => .ok (.addI (xField w))
  | 0x29 => .ok (.ldF (xField w))
  | 0x33 => .ok (.ldB (xField w))
  | 0x55 => .ok (.stRegs (xField w))
  | 0x65 => .ok (.ldRegs (xField w))
  | _ => .error .familyFSubOp

/-- The decode procedure of R64: "the top nibble selects a family; for families with sub-opcodes, the bottom byte or
bottom nibble selects the specific operation". The last arm is family 0xF. -/
def decode (w : Word) : Except DecodeReject Instr :=
  match (opField w).toNat with
  | 0x0 => .ok (decodeFamily0 w)
  | 0x1 => .ok (.jp (nnnField w))
  | 0x2 => .ok (.call (nnnField w))
  | 0x3 => .ok (.seImm (xField w) (kkField w))
  | 0x4 => .ok (.sneImm (xField w) (kkField w))
  | 0x5 => if nField w = 0#4 then .ok (.seReg (xField w) (yField w)) else .error .family5Nibble
  | 0x6 => .ok (.ldImm (xField w) (kkField w))
  | 0x7 => .ok (.addImm (xField w) (kkField w))
  | 0x8 => decodeFamily8 w
  | 0x9 => if nField w = 0#4 then .ok (.sneReg (xField w) (yField w)) else .error .family9Nibble
  | 0xA => .ok (.ldI (nnnField w))
  | 0xB => .ok (.jpV0 (nnnField w))
  | 0xC => .ok (.rnd (xField w) (kkField w))
  | 0xD => .ok (.drw (xField w) (yField w) (nField w))
  | 0xE => decodeFamilyE w
  | _ => decodeFamilyF w

/-- "an instruction word is the two bytes … combined big-endian" (R60, 20_memory.md R42). -/
def wordOfBytes (hi lo : Byte) : Word := hi ++ lo

/-- The decoder on bytes: one instruction and the bytes after it. Total on any list. -/
def decodeBytes : List Byte → Except DecodeReject (Instr × List Byte)
  | hi :: lo :: rest =>
    match decode (wordOfBytes hi lo) with
    | .ok i => .ok (i, rest)
    | .error e => .error e
  | [] | [_] => .error .tooShort

/-! ## Encoding, from the same map (R62, R65) -/

/-- Format A: `op nnn`. -/
def formatA (op : Nibble) (nnn : Addr12) : Word := op ++ nnn

/-- Formats RI and RS: `op x kk`. -/
def formatRI (op : Nibble) (x : Reg) (kk : Byte) : Word := op ++ (BitVec.ofFin x : Nibble) ++ kk

/-- Formats RR and RRN: `op x y n`. -/
def formatRR (op : Nibble) (x y : Reg) (n : Nibble) : Word :=
  op ++ (BitVec.ofFin x : Nibble) ++ (BitVec.ofFin y : Nibble) ++ n

/-- The word of an instruction (R65). -/
def encode : Instr → Word
  | .cls => 0x00E0#16
  | .ret => 0x00EE#16
  | .sys nnn => formatA 0x0 nnn
  | .jp nnn => formatA 0x1 nnn
  | .call nnn => formatA 0x2 nnn
  | .jpV0 nnn => formatA 0xB nnn
  | .seImm x kk => formatRI 0x3 x kk
  | .sneImm x kk => formatRI 0x4 x kk
  | .seReg x y => formatRR 0x5 x y 0x0
  | .sneReg x y => formatRR 0x9 x y 0x0
  | .ldImm x kk => formatRI 0x6 x kk
  | .addImm x kk => formatRI 0x7 x kk
  | .ldReg x y => formatRR 0x8 x y 0x0
  | .or x y => formatRR 0x8 x y 0x1
  | .and x y => formatRR 0x8 x y 0x2
  | .xor x y => formatRR 0x8 x y 0x3
  | .addReg x y => formatRR 0x8 x y 0x4
  | .sub x y => formatRR 0x8 x y 0x5
  | .shr x y => formatRR 0x8 x y 0x6
  | .subn x y => formatRR 0x8 x y 0x7
  | .shl x y => formatRR 0x8 x y 0xE
  | .ldI nnn => formatA 0xA nnn
  | .addI x => formatRI 0xF x 0x1E
  | .ldF x => formatRI 0xF x 0x29
  | .rnd x kk => formatRI 0xC x kk
  | .drw x y n => formatRR 0xD x y n
  | .skp x => formatRI 0xE x 0x9E
  | .sknp x => formatRI 0xE x 0xA1
  | .ldVxDt x => formatRI 0xF x 0x07
  | .ldVxK x => formatRI 0xF x 0x0A
  | .ldDtVx x => formatRI 0xF x 0x15
  | .ldStVx x => formatRI 0xF x 0x18
  | .ldB x => formatRI 0xF x 0x33
  | .stRegs x => formatRI 0xF x 0x55
  | .ldRegs x => formatRI 0xF x 0x65

/-! ## The opcode map as a table (R65) -/

/-- The row of R65 an instruction belongs to, 1 to 35. -/
def rowOf : Instr → Nat
  | .cls => 1
  | .ret => 2
  | .sys _ => 3
  | .jp _ => 4
  | .call _ => 5
  | .jpV0 _ => 6
  | .seImm _ _ => 7
  | .sneImm _ _ => 8
  | .seReg _ _ => 9
  | .sneReg _ _ => 10
  | .ldImm _ _ => 11
  | .addImm _ _ => 12
  | .ldReg _ _ => 13
  | .or _ _ => 14
  | .and _ _ => 15
  | .xor _ _ => 16
  | .addReg _ _ => 17
  | .sub _ _ => 18
  | .shr _ _ => 19
  | .subn _ _ => 20
  | .shl _ _ => 21
  | .ldI _ => 22
  | .addI _ => 23
  | .ldF _ => 24
  | .rnd _ _ => 25
  | .drw _ _ _ => 26
  | .skp _ => 27
  | .sknp _ => 28
  | .ldVxDt _ => 29
  | .ldVxK _ => 30
  | .ldDtVx _ => 31
  | .ldStVx _ => 32
  | .ldB _ => 33
  | .stRegs _ => 34
  | .ldRegs _ => 35

/-- Mask and match of each row of R65, `(row, mask, match)`. `CLS` and `RET` stand before `SYS`, which "has the lowest
priority" (R66). -/
def opcodeMap : List (Nat × Word × Word) :=
  [(1, 0xFFFF, 0x00E0), (2, 0xFFFF, 0x00EE), (3, 0xF000, 0x0000), (4, 0xF000, 0x1000), (5, 0xF000, 0x2000),
   (6, 0xF000, 0xB000), (7, 0xF000, 0x3000), (8, 0xF000, 0x4000), (9, 0xF00F, 0x5000), (10, 0xF00F, 0x9000)] ++
  [(11, 0xF000, 0x6000), (12, 0xF000, 0x7000), (13, 0xF00F, 0x8000), (14, 0xF00F, 0x8001), (15, 0xF00F, 0x8002),
   (16, 0xF00F, 0x8003), (17, 0xF00F, 0x8004), (18, 0xF00F, 0x8005), (19, 0xF00F, 0x8006), (20, 0xF00F, 0x8007)] ++
  [(21, 0xF00F, 0x800E), (22, 0xF000, 0xA000), (23, 0xF0FF, 0xF01E), (24, 0xF0FF, 0xF029), (25, 0xF000, 0xC000),
   (26, 0xF000, 0xD000), (27, 0xF0FF, 0xE09E), (28, 0xF0FF, 0xE0A1), (29, 0xF0FF, 0xF007), (30, 0xF0FF, 0xF00A)] ++
  [(31, 0xF0FF, 0xF015), (32, 0xF0FF, 0xF018), (33, 0xF0FF, 0xF033), (34, 0xF0FF, 0xF055), (35, 0xF0FF, 0xF065)]

/-- The first row of the map that a word matches (`w & mask = match`), or none: the reading of R65 beside R64's. -/
def lookupRow (w : Word) : Option Nat :=
  (opcodeMap.find? fun r => w &&& r.2.1 == r.2.2).map (·.1)

/-- What the decoder makes of a word, as a row of R65. -/
def decodedRow (w : Word) : Option Nat :=
  match decode w with
  | .ok i => some (rowOf i)
  | .error _ => none

/-! ## The opcode table's numbering of an instruction's bits -/

/-- The two bytes, as the hardware stores them, of the instruction whose lowest `nbits` bits are those of `w` and whose
other bits are 0. The machine has one instruction length, 16 bits (R60). -/
def tableBytes (nbits w : Nat) : List Byte :=
  let word : Word := BitVec.ofNat 16 (w % 2 ^ nbits)
  [word.extractLsb' 8 8, word.extractLsb' 0 8]

/-- The instruction the decoder reads from a row's bits; no instruction is longer than 16 bits (R60). -/
def decodeTableWord (nbits w : Nat) : Option Instr :=
  if nbits ≤ 16 then
    match decodeBytes (tableBytes nbits w) with
    | .ok (i, _) => some i
    | .error _ => none
  else none

end Sys2Proof
end

