-- ==== Sys2Proof/Config.lean ====
section
/-!
DEFINITION. What an implementation fixes: the parameters of 00_scope.md R4 with their default values, the fixed
sizes, and the one free value of the machine, the random source.
-/

namespace Sys2Proof

/-- The parameters of 00_scope.md R4 that "a model takes … as arguments". `State` carries them unchanged (log 1). -/
structure Params where
  /-- `FONT`: 80 bytes, glyph `g` at `5g .. 5g+4` (20_memory.md R50, R51; decision D2). -/
  font : List Byte
  /-- `STACK_DEPTH`: `none` is unbounded (10_state.md R16; decision D7). -/
  stackDepth : Option Nat
  /-- `STEPS_PER_TICK`, at least 1 (60_exceptions.md R200; log 22). -/
  stepsPerTick : Nat
  /-- `TICK_HZ`: "no rule depends on it" (00_scope.md R4). -/
  tickHz : Nat
  /-- `SHL_FLAG_NORMALIZE` (42_alu.md R112; decision D11). -/
  shlFlagNormalize : Bool
  deriving DecidableEq, Repr

/-- `FONT_LEN` (00_scope.md R4). -/
abbrev fontLen : Nat := 80

/-- `MEM_SIZE` (00_scope.md R4, 10_state.md R24). -/
abbrev memSize : Nat := 4096

/-- `PROG_BASE` and `PC_RESET` (00_scope.md R4). -/
abbrev progBase : Nat := 0x200

/-- `PROG_MAX` (00_scope.md R4, 20_memory.md R52). -/
abbrev progMax : Nat := 3584

/-- `COLS` (00_scope.md R4, 44_draw.md R130). -/
abbrev cols : Nat := 64

/-- `ROWS` (00_scope.md R4, 44_draw.md R130). -/
abbrev rows : Nat := 32

/-- The number of display cells (44_draw.md R130). -/
abbrev cells : Nat := 2048

/-- The default `FONT` of 20_memory.md R51. Glyph 0 is DOC0's; glyphs 1 to F are decision D2 (PRESUMED, log 4). -/
def Config.defaultFont : List Byte :=
  [0xF0, 0x90, 0x90, 0x90, 0xF0] ++ [0x20, 0x60, 0x20, 0x20, 0x70] ++
  [0xF0, 0x10, 0xF0, 0x80, 0xF0] ++ [0xF0, 0x10, 0xF0, 0x10, 0xF0] ++
  [0x90, 0x90, 0xF0, 0x10, 0x10] ++ [0xF0, 0x80, 0xF0, 0x10, 0xF0] ++
  [0xF0, 0x80, 0xF0, 0x90, 0xF0] ++ [0xF0, 0x10, 0x20, 0x40, 0x40] ++
  [0xF0, 0x90, 0xF0, 0x90, 0xF0] ++ [0xF0, 0x90, 0xF0, 0x10, 0xF0] ++
  [0xF0, 0x90, 0xF0, 0x90, 0x90] ++ [0xE0, 0x90, 0xE0, 0x90, 0xE0] ++
  [0xF0, 0x80, 0x80, 0x80, 0xF0] ++ [0xE0, 0x90, 0x90, 0x90, 0xE0] ++
  [0xF0, 0x80, 0xF0, 0x80, 0xF0] ++ [0xF0, 0x80, 0xF0, 0x80, 0x80]

/-- The parameters at the values "this hardware takes" (00_scope.md R4). -/
def Config.defaultParams : Params where
  font := Config.defaultFont
  stackDepth := none
  stepsPerTick := 10
  tickHz := 60
  shlFlagNormalize := false

/-- What R4 requires of the parameters: a font of 80 bytes, and at least one step to a tick (log 22). -/
abbrev Params.wf (p : Params) : Prop := p.font.length = fontLen ∧ 1 ≤ p.stepsPerTick

/-- FREE VALUE. The `k`-th value of the input `rnd`: "a fresh free value at every execution of `RND`, constrained by
nothing" (10_state.md R30, decision D14; log 14). It has no body: a claim holds whatever it is. -/
opaque Config.draw8 : Nat → Byte

end Sys2Proof
end

