-- ==== Sys2Proof/Machine/State.lean ====
section
/-!
DEFINITION. The state: every element of 10_state.md R10 to R24, the outputs of R32, the input level of R28, and the
model's own fields (`env`, `batch`, `draws`, `params`; logs 1, 14, 20, 22), with its value at reset (R33).
-/

namespace Sys2Proof.Machine

/-- What stops the machine outside the spec's own states. There is none: each fault of 60_exceptions.md R180 is a
latched state of the machine (R184, R189; `FaultStatus`), so a meaning that raises one answers a NEXT state. No
meaning and no step raises a `Fault`, which is safe (log 19). -/
inductive Fault where
  deriving DecidableEq, Repr

/-- What a step answers no state for. -/
inductive Refusal where
  /-- Raised by `exec` for an instruction that has no meaning in the model; safe. -/
  | notModelled (mnemonic : String)
  /-- Raised by `State.loadImage` for a `load` while an image is loaded: "a `load` after execution has begun is not
  described by DOC0 and a model refuses it" (70_reset_and_hazards.md R222, decision D21); safe. A load after one whose
  image was too long is not refused (DESIGN CHOICE, log 21). -/
  | loadAfterLoad
  deriving DecidableEq, Repr

/-- The element `fault` (10_state.md R20, 60_exceptions.md R180). -/
inductive FaultStatus where
  /-- code 0 -/
  | none
  /-- code 1: an undefined word or `SYS` (R181) -/
  | decodeFailure
  /-- code 2: `RET` with an empty stack (R182) -/
  | stackUnderflow
  /-- code 3: `CALL` on a full stack, only when `STACK_DEPTH` is finite (R183) -/
  | stackOverflow
  deriving DecidableEq, Repr

/-- The engine states (10_state.md R21). -/
inductive EngineState where
  | running
  | paused
  | halted
  deriving DecidableEq, Repr

/-- What the environment can do between two ticks (10_state.md R28, R29, R31; 60_exceptions.md R193; log 20). -/
inductive Event where
  /-- the event `key_press(k)` (R29) -/
  | keyPress (k : Key)
  /-- the level input `keys` takes new values (R28) -/
  | setKeys (levels : BitVec 16)
  /-- `load(image)` (R31) -/
  | load (image : List Byte)
  /-- `reset` (R31) -/
  | reset
  deriving DecidableEq, Repr

/-- Memory: the bytes that differ from their reset contents, by rising address (10_state.md R24; log 27). -/
abbrev Memory := List Host.Cell

/-- The 2048 display cells as 32 rows of 64: `disp[cx + 64*cy]` is bit `cx` of row `cy` (10_state.md R23; log 28). -/
abbrev Display := Vector (BitVec 64) 32

/-- The machine's state. -/
structure State where
  /-- `V[0]` to `V[15]` (R10) -/
  v : Vector Byte 16
  /-- the address register `I` (R12) -/
  i : Word
  /-- the program counter (R13) -/
  pc : Word
  /-- the return-address stack, the newest entry first (R16) -/
  stack : List Word
  /-- the delay timer `DT` (R17) -/
  dt : Byte
  /-- the sound timer `ST` (R18) -/
  st : Byte
  /-- `wait_reg`, the pause latch and the register it waits to write (R19) -/
  waitReg : Option Reg
  /-- `fault` (R20) -/
  fault : FaultStatus
  /-- `fault_word` (R20) -/
  faultWord : Word
  /-- `fault_addr` (R20) -/
  faultAddr : Word
  /-- `loaded` (R22) -/
  loaded : Bool
  /-- `disp` (R23) -/
  disp : Display
  /-- `mem` (R24) -/
  mem : Memory
  /-- the output `sound_out` as last updated (R32) -/
  soundOut : Bool
  /-- the output `frame` as last sampled (R32); what shows inside a batch is left open (DESIGN CHOICE, log 31) -/
  frame : Display
  /-- the input `keys` as it stands (R28) -/
  keys : BitVec 16
  /-- MODEL: the environment's events in each of the coming gaps between ticks, the next gap first (log 20) -/
  env : List (List Event)
  /-- MODEL: how many `step()` calls of the present tick have been made (log 22) -/
  batch : Nat
  /-- MODEL: how many values of `rnd` have been drawn (log 14) -/
  draws : Nat
  /-- MODEL: the parameters of 00_scope.md R4 (log 1) -/
  params : Params
  deriving DecidableEq, Repr

/-- The outcome of one step of this machine. -/
abbrev StepOutcome := Host.Outcome State Fault Refusal

/-- The machine right after `reset` with given parameters (R33, 70_reset_and_hazards.md R220, R221): memory lists
nothing, so it holds the font and zeros. -/
def State.init (p : Params) : State where
  v := Vector.replicate 16 0x00#8
  i := 0x0000#16
  pc := 0x0200#16
  stack := []
  dt := 0x00#8
  st := 0x00#8
  waitReg := none
  fault := .none
  faultWord := 0x0000#16
  faultAddr := 0x0000#16
  loaded := false
  disp := Vector.replicate 32 0#64
  mem := []
  soundOut := false
  frame := Vector.replicate 32 0#64
  keys := 0#16
  env := []
  batch := 0
  draws := 0
  params := p

/-- The machine right after `reset`, with R4's default parameters and no input scheduled. -/
def State.reset : State := State.init Config.defaultParams

end Sys2Proof.Machine
end

