-- ==== Sys2Proof/Machine/Display.lean ====
section
/-!
DEFINITION. The Display Buffer as a block (44_draw.md R130 to R135): its cells, the pixel-set operation with its
one-shot wrap, clear, and the drawing of a sprite. It "has no knowledge of instructions".
-/

namespace Sys2Proof.Machine

/-- `disp[k]` (R130); no cell has an index of 2048 or more. -/
def Display.cell (d : Display) (k : Nat) : Bool :=
  if h : k / cols < rows then d[k / cols].getLsbD (k % cols) else false

/-- `disp[k] <- disp[k] ^ 1`; nothing where there is no cell `k`. -/
def Display.toggle (d : Display) (k : Nat) : Display :=
  if h : k / cols < rows then d.set (k / cols) (d[k / cols] ^^^ BitVec.twoPow 64 (k % cols)) else d

/-- `ClearDisplay()` (R134). -/
def Display.clear : Display := Vector.replicate 32 0#64

/-- The one-shot wrap (R131): "if the coordinate is ≥ the bound, subtract the bound once; if negative, add the bound
once". -/
def wrap1 (c b : Int) : Int :=
  if b ≤ c then c - b else if c < 0 then c + b else c

/-- The linear index `SetPixel` computes, "the un-normalised values … used as they are" (R132). -/
def pixelIndex (cx cy : Int) : Int :=
  wrap1 cx 64 + wrap1 cy 32 * 64

/-- `SetPixel(cx, cy)` (R132): the display after it, and `erased`. An index outside 0 to 2047 changes no cell and
erases none (R133, decision D17; log 17). -/
def setPixel (d : Display) (cx cy : Int) : Display × Bool :=
  let k := pixelIndex cx cy
  if 0 ≤ k ∧ k < 2048 then
    let d' := d.toggle k.toNat
    (d', !d'.cell k.toNat)
  else (d, false)

/-- The bit of a sprite row that column `col` shows: bit 7 is the leftmost (R137, decision D18; log 18). -/
def spriteBit (s : Byte) (col : Nat) : Bool := s.getLsbD (7 - col)

/-- One column of one sprite row: `SetPixel` where the sprite bit is set, the collision only ever set (R136). The
coordinates are integer sums, not reduced modulo 256 (decision D16, log 16). -/
def drawColumn (vx cy : Nat) (s : Byte) (acc : Display × Bool) (col : Nat) : Display × Bool :=
  if spriteBit s col then
    let r := setPixel acc.1 ((vx + col : Nat) : Int) ((cy : Nat) : Int)
    (r.1, acc.2 || r.2)
  else acc

/-- One sprite row, its columns 0 to 7 in turn (R136). -/
def drawRow (vx cy : Nat) (s : Byte) (acc : Display × Bool) : Display × Bool :=
  (List.range 8).foldl (drawColumn vx cy s) acc

/-- The sprite's rows in turn from the row at `cy` down (R136): the display after, and whether any pixel was erased. -/
def drawRows (vx : Nat) : Nat → List Byte → Display × Bool → Display × Bool
  | _, [], acc => acc
  | cy, s :: ss, acc => drawRows vx (cy + 1) ss (drawRow vx cy s acc)

end Sys2Proof.Machine
end

