-- ==== Sys2Proof/Machine/Memory.lean ====
section
/-!
DEFINITION. Memory as a sorted list of the bytes that differ from their reset contents (log 27). These operations take
plain addresses; the port that masks them to 12 bits is in Machine/Ops.lean (20_memory.md R40, R41).
-/

namespace Sys2Proof.Machine

/-- What an unlisted address reads as: its reset contents, the font at 0x000 to 0x04F and 0x00 elsewhere (10_state.md
R33, 70_reset_and_hazards.md R221). -/
def resetByte (font : List Byte) (a : Nat) : Byte :=
  if a < fontLen then font.getD a 0x00 else 0x00

/-- The byte at an address. -/
def Memory.read (font : List Byte) : Memory → Nat → Byte
  | [], a => resetByte font a
  | (b, u) :: m, a => if a = b then u else Memory.read font m a

/-- Lists a byte at its place. -/
def Memory.insert (a : Nat) (u : Byte) : Memory → Memory
  | [] => [(a, u)]
  | (b, w) :: m =>
    if a < b then (a, u) :: (b, w) :: m
    else if a = b then (a, u) :: m
    else (b, w) :: Memory.insert a u m

/-- Unlists an address. -/
def Memory.erase (a : Nat) : Memory → Memory
  | [] => []
  | (b, w) :: m => if a = b then Memory.erase a m else (b, w) :: Memory.erase a m

/-- Writes a byte, keeping the canonical form: a byte equal to its reset contents is not listed. -/
def Memory.write (font : List Byte) (m : Memory) (a : Nat) (u : Byte) : Memory :=
  if u = resetByte font a then Memory.erase a m else Memory.insert a u m

/-- The canonical form: addresses strictly rising, all below 4096, no byte equal to its reset contents. -/
abbrev Memory.wf (font : List Byte) (m : Memory) : Prop :=
  m.Pairwise (fun c d => c.1 < d.1) ∧ ∀ c ∈ m, c.1 < memSize ∧ c.2 ≠ resetByte font c.1

end Sys2Proof.Machine
end

