-- ==== Sys2Proof/Machine/Ops.lean ====
section
/-!
DEFINITION. The named operations over the state: the primitives of 00_scope.md R6, the memory port and the fetch
(20_memory.md R40 to R42), the return stack (10_state.md R16), and taking a fault (60_exceptions.md R181 to R183).
There is no return from a fault (60_exceptions.md R190).
-/

namespace Sys2Proof.Machine

/-! ## Registers -/

/-- `V[x]` (R10). -/
def State.getV (s : State) (x : Reg) : Byte := s.v[x]

/-- `V[x] <- b` (R10). -/
def State.setV (s : State) (x : Reg) (b : Byte) : State := { s with v := s.v.set x.val b x.isLt }

/-- `I <- a` (R12). -/
def State.setI (s : State) (a : Word) : State := { s with i := a }

/-- `pc <- a` (R13). -/
def State.setPc (s : State) (a : Word) : State := { s with pc := a }

/-- `DT <- b` (R17). -/
def State.setDt (s : State) (b : Byte) : State := { s with dt := b }

/-- `ST <- b` (R18). -/
def State.setSt (s : State) (b : Byte) : State := { s with st := b }

/-- `wait_reg <- r` (R19). -/
def State.setWait (s : State) (r : Option Reg) : State := { s with waitReg := r }

/-- The return stack becomes `l`. -/
def State.setStack (s : State) (l : List Word) : State := { s with stack := l }

/-- The display buffer becomes `d`. -/
def State.setDisp (s : State) (d : Display) : State := { s with disp := d }

/-- `pc <- pc + 2`, modulo 65536 (10_state.md R14, R15; decision D6, log 7). -/
def State.advance (s : State) : State := s.setPc (s.pc + 2#16)

/-- `a`, the address the running instruction was fetched from: `pc` "already holds `(a + 2) mod 65536`"
(40_control.md, template; log 29). -/
def State.instrAddr (s : State) : Word := s.pc - 2#16

/-! ## The memory port -/

/-- `MemRead(addr, 1)`: `mem[addr mod 4096]` (R40; decision D5, log 6). -/
def State.memRead (s : State) (addr : Nat) : Byte := s.mem.read s.params.font (addr % memSize)

/-- `MemWrite(addr, 1, b)`: `mem[addr mod 4096] <- b` (R41). -/
def State.memWrite (s : State) (addr : Nat) (b : Byte) : State :=
  { s with mem := s.mem.write s.params.font (addr % memSize) b }

/-- Writes bytes at ascending addresses. -/
def State.memWriteList (s : State) : Nat → List Byte → State
  | _, [] => s
  | addr, b :: bs => State.memWriteList (s.memWrite addr b) (addr + 1) bs

/-- `Fetch16(a)`: "the two bytes at [pc, pc+1] combined big-endian", each address masked separately (R42). -/
def State.fetch16 (s : State) (a : Word) : Word :=
  wordOfBytes (s.memRead a.toNat) (s.memRead (a.toNat + 1))

/-! ## The return stack (R16) -/

/-- `push(a)`. -/
def State.push (s : State) (a : Word) : State := s.setStack (a :: s.stack)

/-- `pop()`: the newest entry and the state without it, or nothing when `depth = 0`. -/
def State.pop (s : State) : Option (Word × State) :=
  match s.stack with
  | [] => none
  | a :: l => some (a, s.setStack l)

/-- "`STACK_DEPTH` is finite and `depth = STACK_DEPTH`" (R84, R183). -/
def State.stackFull (s : State) : Bool :=
  match s.params.stackDepth with
  | none => false
  | some d => s.stack.length == d

/-! ## Faults -/

/-- Taking a fault: `fault`, `fault_word` and `fault_addr` are written and "Nothing else is written" (R181 to R183,
R189). -/
def State.raiseFault (s : State) (f : FaultStatus) (w a : Word) : State :=
  { s with fault := f, faultWord := w, faultAddr := a }

/-- `fault_code`, 2 bits (R180). -/
def State.faultCode (s : State) : BitVec 2 :=
  match s.fault with
  | .none => 0
  | .decodeFailure => 1
  | .stackUnderflow => 2
  | .stackOverflow => 3

/-- The engine state, "a function of `fault` and `wait_reg`" (10_state.md R21). -/
def State.engineState (s : State) : EngineState :=
  if s.fault ≠ .none then .halted else if s.waitReg ≠ none then .paused else .running

/-! ## The random source -/

/-- One more value of `rnd` has been drawn (R30; log 14). -/
def State.countDraw (s : State) : State := { s with draws := s.draws + 1 }

/-- `draw8()`: the fresh free value, and the state that has drawn it (R30). -/
def State.draw8 (s : State) : Byte × State := (Config.draw8 s.draws, s.countDraw)

/-! ## Outcomes -/

/-- Goes on from a next state; a fault or a refusal stands. -/
def andThen (o : StepOutcome) (f : State → StepOutcome) : StepOutcome :=
  match o with
  | .next s => f s
  | .fault r => .fault r
  | .refused r => .refused r

end Sys2Proof.Machine
end

