-- ==== Sys2Proof/Machine/Operands.lean ====
section
/-!
DEFINITION. The operand forms: immediates (30_encoding.md R63), the one data addressing mode (20_memory.md R54), jump
targets, the key test (45_keyboard.md R150), decimal digits (46_timer_bcd_block.md R165), the glyph address
(43_address_random.md R122), sprite bytes and register blocks.
-/

namespace Sys2Proof.Machine

/-- `zext_16(nnn)`: an immediate address meeting a 16-bit register is zero-extended (30_encoding.md R63). -/
def zextAddr (nnn : Addr12) : Word := nnn.setWidth 16

/-- `zext_16(v)` of a register's byte. -/
def zextByte (b : Byte) : Word := b.setWidth 16

/-- The address `I + offset`, not truncated; the port masks it (20_memory.md R54). -/
def State.dataAddr (s : State) (offset : Nat) : Nat := s.i.toNat + offset

/-- `KeyDown(v)`: the level of key `v`, and not pressed for `v` from 16 to 255 (45_keyboard.md R150; decision D15,
log 15). -/
def State.keyDown (s : State) (b : Byte) : Bool :=
  if b.toNat ≤ 15 then s.keys.getLsbD b.toNat else false

/-- A skip "adds 2 to the already advanced `pc`" when its condition holds (41_skip.md R94). -/
def State.skipIf (s : State) (c : Bool) : State := if c then s.advance else s

/-- The address of the glyph of a register's byte: `zext_16(V[x]) * 5` (43_address_random.md R122). -/
def glyphAddr (b : Byte) : Word := zextByte b * 5#16

/-- The three decimal digits, hundreds first (46_timer_bcd_block.md R165). -/
def decimalDigits (b : Byte) : List Byte := [b / 100#8, (b % 100#8) / 10#8, b % 10#8]

/-- The sprite's `n` bytes, `MemRead(I + row, 1)` for `row = 0 .. n-1` (44_draw.md R136). -/
def State.spriteRows (s : State) (n : Nat) : List Byte :=
  (List.range n).map fun row => s.memRead (s.dataAddr row)

/-- The values of `V[0]` to `V[x]` in order (46_timer_bcd_block.md R166). -/
def State.regsTo (s : State) (x : Reg) : List Byte :=
  (s.v.toList).take (x.val + 1)

/-- `V[r] <- MemRead(base + r, 1)` for the given registers in turn (46_timer_bcd_block.md R167). -/
def State.loadRegs (s : State) (base : Nat) : List Reg → State
  | [] => s
  | r :: rs => State.loadRegs (s.setV r (s.memRead (base + r.val))) base rs

/-- The registers 0 to `x`, ascending. -/
def regsUpTo (x : Reg) : List Reg := (List.finRange 16).filter (· ≤ x)

end Sys2Proof.Machine
end

