-- ==== Sys2Proof/Machine/AddressRandom.lean ====
section
/-!
DEFINITION. The address register and the random byte (43_address_random.md R120 to R123). None touches `VF` as a flag
(decision D13, log 13).
-/

namespace Sys2Proof.Machine

/-- `LD I, nnn` (R120). -/
def execLdI (nnn : Addr12) (s : State) : StepOutcome := .next (s.setI (zextAddr nnn))

/-- `ADD I, Vx` (R121): modulo 65536, not masked to 12 bits (decision D6, log 7). -/
def execAddI (x : Reg) (s : State) : StepOutcome := .next (s.setI (s.i + zextByte (s.getV x)))

/-- `LD F, Vx` (R122): the whole byte times 5. -/
def execLdF (x : Reg) (s : State) : StepOutcome := .next (s.setI (glyphAddr (s.getV x)))

/-- `RND Vx, kk` (R123): a fresh draw masked by `kk`. -/
def execRnd (x : Reg) (kk : Byte) (s : State) : StepOutcome :=
  let d := s.draw8
  .next (d.2.setV x (d.1 &&& kk))

end Sys2Proof.Machine
end

