-- ==== Sys2Proof/Machine/Flags.lean ====
section
/-!
DEFINITION. The flag computations, each on operands read before anything is written, and the order of the two writes
(42_alu.md R100, R101, R108 to R112; 44_draw.md R136). Which instructions write a flag: 10_state.md R11.
-/

namespace Sys2Proof.Machine

/-- A flag that is 1 or 0. -/
def flagByte (c : Bool) : Byte := if c then 0x01 else 0x00

/-- Carry: 1 when the true sum exceeds 255 (R108). -/
def carryFlag (p q : Byte) : Byte := flagByte (decide (p.toNat + q.toNat > 255))

/-- No borrow: 1 when the minuend is strictly greater than the subtrahend (R100, R109, R111). -/
def noBorrowFlag (minuend subtrahend : Byte) : Byte := flagByte (decide (minuend.toNat > subtrahend.toNat))

/-- The bit a right shift moves out: "pre-shift least significant bit" (R110). -/
def shrFlag (p : Byte) : Byte := p &&& 0x01#8

/-- The bit a left shift moves out: "pre-shift high bit, masked", 0x80 or 0x00, or 1 or 0 with
`SHL_FLAG_NORMALIZE` (R112; decision D11, log 11). -/
def shlFlag (normalize : Bool) (p : Byte) : Byte :=
  if normalize then (p >>> 7) &&& 0x01#8 else p &&& 0x80#8

/-- The flag to `VF`, then the result to `V[x]`, so that the result stays when `x = 15` (R101; decision D10, log 10). -/
def State.writeFlagResult (s : State) (x : Reg) (flag result : Byte) : State :=
  (s.setV flagReg flag).setV x result

end Sys2Proof.Machine
end

