-- ==== Sys2Proof/Machine/Alu.lean ====
section
/-!
DEFINITION. Register load and arithmetic (42_alu.md R100 to R112). All values are unsigned bytes and wrap modulo 256
(R100); the forms with a flag latch their operands first (R101). No other form touches `VF` (decision D13, log 13).
-/

namespace Sys2Proof.Machine

/-- `LD Vx, kk` (R102). -/
def execLdImm (x : Reg) (kk : Byte) (s : State) : StepOutcome := .next (s.setV x kk)

/-- `ADD Vx, kk` (R103): no flag. -/
def execAddImm (x : Reg) (kk : Byte) (s : State) : StepOutcome := .next (s.setV x (s.getV x + kk))

/-- `LD Vx, Vy` (R104). -/
def execLdReg (x y : Reg) (s : State) : StepOutcome := .next (s.setV x (s.getV y))

/-- `OR Vx, Vy` (R105). -/
def execOr (x y : Reg) (s : State) : StepOutcome := .next (s.setV x (s.getV x ||| s.getV y))

/-- `AND Vx, Vy` (R106). -/
def execAnd (x y : Reg) (s : State) : StepOutcome := .next (s.setV x (s.getV x &&& s.getV y))

/-- `XOR Vx, Vy` (R107). -/
def execXor (x y : Reg) (s : State) : StepOutcome := .next (s.setV x (s.getV x ^^^ s.getV y))

/-- `ADD Vx, Vy` (R108): carry to `VF`, sum modulo 256 to `V[x]`. -/
def execAddReg (x y : Reg) (s : State) : StepOutcome :=
  let p := s.getV x
  let q := s.getV y
  .next (s.writeFlagResult x (carryFlag p q) (p + q))

/-- `SUB Vx, Vy` (R109): `VF` is 1 when `V[x] > V[y]`, `V[x]` the difference modulo 256. -/
def execSub (x y : Reg) (s : State) : StepOutcome :=
  let p := s.getV x
  let q := s.getV y
  .next (s.writeFlagResult x (noBorrowFlag p q) (p - q))

/-- `SHR Vx` (R110): `V[x]` is shifted in place and the `y` field is not used (decision D12, log 12). -/
def execShr (x _y : Reg) (s : State) : StepOutcome :=
  let p := s.getV x
  .next (s.writeFlagResult x (shrFlag p) (p >>> 1))

/-- `SUBN Vx, Vy` (R111): the minuend is `V[y]`. -/
def execSubn (x y : Reg) (s : State) : StepOutcome :=
  let p := s.getV x
  let q := s.getV y
  .next (s.writeFlagResult x (noBorrowFlag q p) (q - p))

/-- `SHL Vx` (R112): `V[x]` is shifted in place and the `y` field is not used (decision D12, log 12). -/
def execShl (x _y : Reg) (s : State) : StepOutcome :=
  let p := s.getV x
  .next (s.writeFlagResult x (shlFlag s.params.shlFlagNormalize p) (p <<< 1))

end Sys2Proof.Machine
end

