-- ==== Sys2Proof/Machine/Control.lean ====
section
/-!
DEFINITION. The control instructions (40_control.md R80 to R86). Each meaning is given the state whose `pc` is already
`a + 2` (10_state.md R14; log 29).
-/

namespace Sys2Proof.Machine

/-- `CLS` (R80): clear the display; "no register/memory mutation". -/
def execCls (s : State) : StepOutcome := .next (s.setDisp Display.clear)

/-- `RET` (R81): `pc <- pop()`, or `StackUnderflow` with the word 0x00EE when the stack is empty (R182). -/
def execRet (s : State) : StepOutcome :=
  match s.pop with
  | none => .next (s.raiseFault .stackUnderflow 0x00EE#16 s.instrAddr)
  | some (a, s') => .next (s'.setPc a)

/-- `SYS nnn` (R82): raises `DecodeFailure` with its own word (R181; decision D9, log 9). -/
def execSys (nnn : Addr12) (s : State) : StepOutcome :=
  .next (s.raiseFault .decodeFailure (encode (.sys nnn)) s.instrAddr)

/-- `JP nnn` (R83): `pc <- zext_16(nnn)`. -/
def execJp (nnn : Addr12) (s : State) : StepOutcome := .next (s.setPc (zextAddr nnn))

/-- `CALL nnn` (R84): push the advanced `pc` and jump, or `StackOverflow` with its own word on a full finite stack
(R183; decision D7, log 8). -/
def execCall (nnn : Addr12) (s : State) : StepOutcome :=
  if s.stackFull then .next (s.raiseFault .stackOverflow (encode (.call nnn)) s.instrAddr)
  else .next ((s.push s.pc).setPc (zextAddr nnn))

/-- `JP V0, nnn` (R85): `pc <- zext_16(nnn) + zext_16(V[0])`, kept in 16 bits. -/
def execJpV0 (nnn : Addr12) (s : State) : StepOutcome :=
  .next (s.setPc (zextAddr nnn + zextByte (s.getV 0)))

end Sys2Proof.Machine
end

