-- ==== Sys2Proof/Machine/Draw.lean ====
section
/-!
DEFINITION. The draw instruction (44_draw.md R136). The display's own operations are in Machine/Display.lean.
-/

namespace Sys2Proof.Machine

/-- `DRW Vx, Vy, n` (R136): the coordinates and the base are read before `VF` is written (decision D10, log 10); `VF` is
1 if any pixel was erased, else 0. -/
def execDrw (x y : Reg) (n : Nibble) (s : State) : StepOutcome :=
  let vx := (s.getV x).toNat
  let vy := (s.getV y).toNat
  let r := drawRows vx vy (s.spriteRows n.toNat) (s.disp, false)
  .next ((s.setDisp r.1).setV flagReg (flagByte r.2))

end Sys2Proof.Machine
end

