-- ==== Sys2Proof/Machine/Keyboard.lean ====
section
/-!
DEFINITION. The keyboard skips (45_keyboard.md R150 to R152). Each meaning is given the state whose `pc` is already `a + 2`.
-/

namespace Sys2Proof.Machine

/-- `SKP Vx` (R151). -/
def execSkp (x : Reg) (s : State) : StepOutcome := .next (s.skipIf (s.keyDown (s.getV x)))

/-- `SKNP Vx` (R152). -/
def execSknp (x : Reg) (s : State) : StepOutcome := .next (s.skipIf (!s.keyDown (s.getV x)))

end Sys2Proof.Machine
end

