-- ==== Sys2Proof/Machine/Skip.lean ====
section
/-!
DEFINITION. The conditional skips (41_skip.md R90 to R94). Each meaning is given the state whose `pc` is already `a + 2`.
-/

namespace Sys2Proof.Machine

/-- `SE Vx, kk` (R90). -/
def execSeImm (x : Reg) (kk : Byte) (s : State) : StepOutcome := .next (s.skipIf (s.getV x == kk))

/-- `SNE Vx, kk` (R91). -/
def execSneImm (x : Reg) (kk : Byte) (s : State) : StepOutcome := .next (s.skipIf (s.getV x != kk))

/-- `SE Vx, Vy` (R92). -/
def execSeReg (x y : Reg) (s : State) : StepOutcome := .next (s.skipIf (s.getV x == s.getV y))

/-- `SNE Vx, Vy` (R93). -/
def execSneReg (x y : Reg) (s : State) : StepOutcome := .next (s.skipIf (s.getV x != s.getV y))

end Sys2Proof.Machine
end

