-- ==== Sys2Proof/Machine/TimerBcdBlock.lean ====
section
/-!
DEFINITION. The timer, key-wait, decimal and block instructions (46_timer_bcd_block.md R160 to R167). None changes `I`
or `VF` as a flag (decision D13, log 13).
-/

namespace Sys2Proof.Machine

/-- `LD Vx, DT` (R160). -/
def execLdVxDt (x : Reg) (s : State) : StepOutcome := .next (s.setV x s.dt)

/-- `LD Vx, K` (R161): the engine is PAUSED; `V[x]` is written by the key press that ends the wait
(60_exceptions.md R191). -/
def execLdVxK (x : Reg) (s : State) : StepOutcome := .next (s.setWait (some x))

/-- `LD DT, Vx` (R162). -/
def execLdDtVx (x : Reg) (s : State) : StepOutcome := .next (s.setDt (s.getV x))

/-- `LD ST, Vx` (R163). -/
def execLdStVx (x : Reg) (s : State) : StepOutcome := .next (s.setSt (s.getV x))

/-- `LD B, Vx` (R165): hundreds, tens and ones at `I`, `I + 1`, `I + 2`. -/
def execLdB (x : Reg) (s : State) : StepOutcome :=
  .next (s.memWriteList (s.dataAddr 0) (decimalDigits (s.getV x)))

/-- `LD [I], Vx` (R166): `V[0]` to `V[x]` to `I` and up, ascending. -/
def execStRegs (x : Reg) (s : State) : StepOutcome :=
  .next (s.memWriteList (s.dataAddr 0) (s.regsTo x))

/-- `LD Vx, [I]` (R167): `V[0]` to `V[x]` from `I` and up, ascending. -/
def execLdRegs (x : Reg) (s : State) : StepOutcome :=
  .next (s.loadRegs (s.dataAddr 0) (regsUpTo x))

end Sys2Proof.Machine
end

