-- ==== Sys2Proof/Machine/Tick.lean ====
section
/-!
DEFINITION. What happens around the instructions: the timers and the end of a tick (60_exceptions.md R198 to R200), and
the events that arrive between ticks (R191, R193; 70_reset_and_hazards.md R220 to R224).
-/

namespace Sys2Proof.Machine

/-! ## The end of a tick -/

/-- One timer's decrement, floored at 0 (R198). -/
def decTimer (t : Byte) : Byte := if t.toNat > 0 then t - 1 else t

/-- `tickTimers()` (R198). -/
def State.tickTimers (s : State) : State := (s.setDt (decTimer s.dt)).setSt (decTimer s.st)

/-- `isSoundActive()`: `ST > 0` (R199). -/
def State.soundActive (s : State) : Bool := decide (s.st.toNat > 0)

/-- Phase 2 of a tick: the timers, "only when not PAUSED" and not HALTED (R200; decision D19, log 19). -/
def State.timerPhase (s : State) : State :=
  if s.fault = .none ∧ s.waitReg = none then s.tickTimers else s

/-- Phases 3 and 4 of a tick: `sound_out <- (ST > 0)`, `frame <- disp` (R199, R200). DESIGN CHOICE, log 31: until
the next tick's end `frame` holds this sample; what an observer sees of it inside a batch the spec leaves open (44_draw.md
R135). -/
def State.outputPhase (s : State) : State := { s with soundOut := s.soundActive, frame := s.disp }

/-- Phases 2, 3 and 4 of a tick, after its batch (R200). -/
def State.endTick (s : State) : State := s.timerPhase.outputPhase

/-- The number of `step()` calls made in this tick becomes `n` (log 22). -/
def State.setBatch (s : State) (n : Nat) : State := { s with batch := n }

/-! ## The events between ticks -/

/-- The event `key_press(k)` (R191): it ends a pending wait, else "the event is discarded". -/
def State.keyPress (s : State) (k : Key) : State :=
  if s.fault = .none then
    match s.waitReg with
    | some x => (s.setV x (BitVec.ofNat 8 k.val)).setWait none
    | none => s
  else s

/-- `keys` takes new levels (10_state.md R28). -/
def State.setKeys (s : State) (levels : BitVec 16) : State := { s with keys := levels }

/-- `loaded` becomes `b` (10_state.md R22). -/
def State.setLoaded (s : State) (b : Bool) : State := { s with loaded := b }

/-- The coming gaps' events become `e` (log 20). -/
def State.setEnv (s : State) (e : List (List Event)) : State := { s with env := e }

/-- `load(image)` (70_reset_and_hazards.md R222): at most 3584 bytes to 0x200 and up, then `loaded <- 1`; a longer image
changes nothing; a `load` while an image is loaded is refused (decision D21). DESIGN CHOICE, log 21: `loaded` decides which
load is the second one, so a load after a longer image's, which left `loaded` at 0, is accepted. -/
def State.loadImage (s : State) (image : List Byte) : StepOutcome :=
  if s.loaded then .refused .loadAfterLoad
  else if image.length ≤ progMax then .next ((s.memWriteList progBase image).setLoaded true)
  else .next s

/-- `reset` (70_reset_and_hazards.md R220): every state element as R33 gives it. The parameters stand, and the inputs
`keys`, `rnd` and the events still to come are the environment's, not the machine's (log 26). -/
def State.resetMachine (s : State) : State :=
  { State.init s.params with keys := s.keys, env := s.env, draws := s.draws }

/-- The effect of one event (R191, R28, R220, R222). -/
def State.applyEvent (s : State) : Event → StepOutcome
  | .keyPress k => .next (s.keyPress k)
  | .setKeys levels => .next (s.setKeys levels)
  | .load image => s.loadImage image
  | .reset => .next s.resetMachine

/-- Events "are handled one after another in arrival order" (R193). -/
def State.applyEvents : List Event → State → StepOutcome
  | [], s => .next s
  | e :: es, s => andThen (s.applyEvent e) (State.applyEvents es)

/-- The gap between one tick and the next: the events scheduled for it, if any, are handled (R193; log 20). -/
def State.betweenTicks (s : State) : StepOutcome :=
  match s.env with
  | [] => .next s
  | es :: later => State.applyEvents es (s.setEnv later)

end Sys2Proof.Machine
end

