-- ==== Sys2Proof/Machine/Engine.lean ====
section
/-!
DEFINITION. The Execution Engine's `step()` (60_exceptions.md R186), the tick as R200 writes it, and the tick cut into
one `step()` call at a time, which is the machine's step (log 22).
-/

namespace Sys2Proof.Machine

/-- `step()` (R186): nothing while HALTED or PAUSED (R184, R187); else fetch, advance `pc`, decode, and either raise
`DecodeFailure(w, a)` or execute. -/
def engineStep (s : State) : StepOutcome :=
  match s.engineState with
  | .halted => .next s
  | .paused => .next s
  | .running =>
    let a := s.pc
    let w := s.fetch16 a
    match decode w with
    | .ok i => exec i s.advance
    | .error _ => .next (s.advance.raiseFault .decodeFailure w a)

/-- `n` calls of `step()`. -/
def engineSteps : Nat → State → StepOutcome
  | 0, s => .next s
  | n + 1, s => andThen (engineStep s) (engineSteps n)

/-- `tick` (R200): nothing while no image is loaded; else the batch, then the timers, then the two outputs. -/
def tick (s : State) : StepOutcome :=
  if s.loaded then andThen (engineSteps s.params.stepsPerTick s) fun t => .next t.endTick else .next s

/-- What follows a `step()` call of a tick: the call is counted, and after the last the tick ends and the gap to the
next tick begins (R193, R200, R203; log 22). -/
def State.afterCall (s : State) : StepOutcome :=
  if s.batch + 1 < s.params.stepsPerTick then .next (s.setBatch (s.batch + 1))
  else (s.endTick.setBatch 0).betweenTicks

/-- One step of the machine: one `step()` call of the present tick and what follows it. With no image loaded a tick would
have no effect (R22, R200), and the step only lets the environment's next events happen (log 21). -/
def machineStep (s : State) : StepOutcome :=
  if s.loaded then andThen (engineStep s) State.afterCall else s.betweenTicks

/-- The state in which the next step fetches the given bytes: they stand at `pc`, an image counts as loaded and the
engine is RUNNING (log 23). -/
def State.placeInstr (s : State) (bytes : List Byte) : State :=
  let t := { s with loaded := true, waitReg := none, fault := .none, faultWord := 0, faultAddr := 0 }
  t.memWriteList t.pc.toNat bytes

end Sys2Proof.Machine
end

