-- ==== Sys2Proof/Machine/Step.lean ====
section
/-!
DEFINITION. The machine's step, and where it fetches from. Both only call Machine/Engine.lean.
-/

namespace Sys2Proof.Machine

/-- One step: one `step()` call of a tick (60_exceptions.md R186, R200; log 22). -/
def step (s : State) : Host.Outcome State Fault Refusal := machineStep s

/-- The state in which the very next step fetches and runs the instruction with the opcode table's bits `w` (log 23). -/
def State.withFetchWord (s : State) (nbits w : Nat) : State := s.placeInstr (tableBytes nbits w)

end Sys2Proof.Machine
end

