-- ==== Sys2Proof/Safety.lean ====
section
/-!
DEFINITION. The terms claims are made in: the invariant of the machine, what an instruction leaves unchanged (its
frame), and the cells a sprite covers.
-/

namespace Sys2Proof.Machine

/-- The engine is RUNNING: no fault recorded and no key wait pending (10_state.md R21). -/
abbrev State.Running (s : State) : Prop := s.fault = .none ∧ s.waitReg = none

/-- What holds at reset and is kept by every step, in every state that meets it. Each clause names the decision and the
log entry it rests on. -/
structure State.Inv (s : State) : Prop where
  /-- the font is 80 bytes and a tick has at least one step (00_scope.md R4; logs 1, 22) -/
  params_wf : s.params.wf
  /-- memory keeps its canonical form (log 27) -/
  mem_wf : Memory.wf s.params.font s.mem
  /-- the position inside a tick is one of its calls (60_exceptions.md R200; log 22) -/
  batch_lt : s.batch < s.params.stepsPerTick
  /-- a finite return stack is never over full (10_state.md R16; decision D7, log 8) -/
  depth_le : ∀ d, s.params.stackDepth = some d → s.stack.length ≤ d
  /-- with no fault both latches are 0 (60_exceptions.md R180; decisions D4, D19: logs 5, 19) -/
  no_fault_latches : s.fault = .none → s.faultWord = 0 ∧ s.faultAddr = 0
  /-- a HALTED engine waits for no key: PAUSED cannot go to HALTED (60_exceptions.md R185; decision D19, log 19) -/
  halted_not_waiting : s.fault ≠ .none → s.waitReg = none
  /-- at a fault `pc` is the faulting address plus 2, and stays so (60_exceptions.md R181 to R184; decision D19,
  log 19: after an underflow the spec says that `pc` must not be relied on) -/
  halted_pc : s.fault ≠ .none → s.pc = s.faultAddr + 2
  /-- a decode failure's word is undefined or a `SYS` word (60_exceptions.md R180, R181; decisions D8, D9, D19:
  logs 9, 19, 29) -/
  decode_failure : s.fault = .decodeFailure →
    (∃ e, decode s.faultWord = .error e) ∨ ∃ nnn, decode s.faultWord = .ok (.sys nnn)
  /-- an underflow's word is `RET`'s and the stack is empty (60_exceptions.md R182; decision D19, log 19) -/
  underflow : s.fault = .stackUnderflow → s.faultWord = 0x00EE ∧ s.stack = []
  /-- an overflow's word is a `CALL` and the finite stack is full (60_exceptions.md R183; decisions D7, D19: logs 8, 19, 29) -/
  overflow : s.fault = .stackOverflow →
    (∃ nnn, decode s.faultWord = .ok (.call nnn)) ∧ s.params.stackDepth = some s.stack.length
  /-- a machine with no image loaded is as reset left it: "the core simply never executes" (10_state.md R22;
  decision D21, logs 21, 26) -/
  unloaded : s.loaded = false →
    s = { State.init s.params with keys := s.keys, env := s.env, draws := s.draws }

/-- The parts of the state beside the general registers, for frames. -/
inductive Part where
  | addressRegister
  | programCounter
  | returnStack
  | delayTimer
  | soundTimer
  | waitRegister
  | faultLatches
  | loadedBit
  | display
  | memory
  | outputs
  | inputs
  | batch
  | draws
  | params
  deriving DecidableEq, Repr

/-- A part is the same in both states; of memory, every byte reads the same. -/
def Part.Same (s t : State) : Part → Prop
  | .addressRegister => t.i = s.i
  | .programCounter => t.pc = s.pc
  | .returnStack => t.stack = s.stack
  | .delayTimer => t.dt = s.dt
  | .soundTimer => t.st = s.st
  | .waitRegister => t.waitReg = s.waitReg
  | .faultLatches => t.fault = s.fault ∧ t.faultWord = s.faultWord ∧ t.faultAddr = s.faultAddr
  | .loadedBit => t.loaded = s.loaded
  | .display => t.disp = s.disp
  | .memory => ∀ a, t.memRead a = s.memRead a
  | .outputs => t.soundOut = s.soundOut ∧ t.frame = s.frame
  | .inputs => t.keys = s.keys ∧ t.env = s.env
  | .batch => t.batch = s.batch
  | .draws => t.draws = s.draws
  | .params => t.params = s.params

/-- The frame: every register but those listed, and every part but those listed, is as before. -/
def Frame (regs : List Reg) (parts : List Part) (s t : State) : Prop :=
  (∀ q, q ∉ regs → t.getV q = s.getV q) ∧ ∀ p, p ∉ parts → p.Same s t

/-- Every byte of memory reads as before but the `len` bytes from `base` up, each address masked (20_memory.md R41). -/
def MemSameOutside (base len : Nat) (s t : State) : Prop :=
  ∀ a, (∀ k < len, a % memSize ≠ (base + k) % memSize) → t.memRead a = s.memRead a

/-- Cell `k` is one that `DRW Vx, Vy, n` calls `SetPixel` for, read in the state before it (44_draw.md R136, R139). -/
def SpriteCovers (s : State) (x y : Reg) (n : Nibble) (k : Nat) : Prop :=
  ∃ row < n.toNat, ∃ col < 8, spriteBit (s.memRead (s.dataAddr row)) col = true ∧
    pixelIndex (((s.getV x).toNat + col : Nat) : Int) (((s.getV y).toNat + row : Nat) : Int) = (k : Int)

end Sys2Proof.Machine
end

