-- ==== Sys2Proof/Certificates/Slice0/Obligations.lean ====
section
/-!
DEFINITION. The statements for the provers. A meaning is given the state whose `pc` is already `a + 2` (10_state.md R14),
so `s.pc` below is the address after the instruction; `StepRunsTheDecodedInstruction` connects this to a step. `VF` is
`V[15]` by decision D3 (log 3).
-/

open Sys2Proof Sys2Proof.Machine

/-! ## Encoding -/

/-- Every well-formed instruction, with every value of every operand, decodes from its word. The numbers are the model's
reading of R65 (decision D1, log 2). -/
def Obligations.DecodeOfEncodeIsTheInstruction : Prop :=
  ∀ i : Instr, i.WellFormed → decode (encode i) = .ok i

/-- A word that decodes is the word of what it decodes to, and that is well-formed: no bit is dropped, the unused `y`
of the shifts (R69) included. -/
def Obligations.EncodeOfDecodeIsTheWord : Prop :=
  ∀ (w : Word) (i : Instr), decode w = .ok i → i.WellFormed ∧ encode i = w

/-- The decode procedure of R64 and the opcode map of R65 (first matching row, `SYS` after `CLS` and `RET`) agree on
every word. -/
def Obligations.DecodeProcedureAgreesWithOpcodeMap : Prop :=
  ∀ w : Word, decodedRow w = lookupRow w

/-- No word matches two rows of R65, but for the two words of `CLS` and `RET`, which match the `SYS` row too (R66). -/
def Obligations.OpcodeRowsOverlapOnlyAtSys : Prop :=
  ∀ w : Word, ∀ r ∈ opcodeMap, ∀ q ∈ opcodeMap, w &&& r.2.1 = r.2.2 → w &&& q.2.1 = q.2.2 →
    r = q ∨ (r.1 = 3 ∧ (q.1 = 1 ∨ q.1 = 2)) ∨ (q.1 = 3 ∧ (r.1 = 1 ∨ r.1 = 2))

/-- The words that decode to nothing are exactly those R67 and R68 list (decision D8, log 9). -/
def Obligations.UndefinedWordsAreExactlyTheListed : Prop :=
  ∀ w : Word, (∃ e, decode w = .error e) ↔
    (opField w = 0x8 ∧ nField w ∈ [0x8#4, 0x9#4, 0xA#4, 0xB#4, 0xC#4, 0xD#4, 0xF#4]) ∨
    ((opField w = 0x5 ∨ opField w = 0x9) ∧ nField w ≠ 0x0) ∨
    (opField w = 0xE ∧ kkField w ∉ [0x9E#8, 0xA1#8]) ∨
    (opField w = 0xF ∧
      kkField w ∉ [0x07#8, 0x0A#8, 0x15#8, 0x18#8, 0x1E#8, 0x29#8, 0x33#8, 0x55#8, 0x65#8])

/-- The four words DOC0 gives (R71), at least one word of each of the sixteen families as 95_test_vectors.md uses it, and
two words that are no instruction. -/
def Obligations.DecodesTheSpecsWords : Prop :=
  decode 0x00E0 = .ok .cls ∧ decode 0x00EE = .ok .ret ∧ decode 0x1204 = .ok (.jp 0x204) ∧
  decode 0x2300 = .ok (.call 0x300) ∧ decode 0x0123 = .ok (.sys 0x123) ∧ decode 0xB300 = .ok (.jpV0 0x300) ∧
  decode 0x3A42 = .ok (.seImm 10 0x42) ∧ decode 0x4A42 = .ok (.sneImm 10 0x42) ∧ decode 0x5120 = .ok (.seReg 1 2) ∧
  decode 0x6005 = .ok (.ldImm 0 0x05) ∧ decode 0x70FF = .ok (.addImm 0 0xFF) ∧ decode 0x8127 = .ok (.subn 1 2) ∧
  decode 0x9120 = .ok (.sneReg 1 2) ∧ decode 0xA300 = .ok (.ldI 0x300) ∧ decode 0xF11E = .ok (.addI 1) ∧
  decode 0xC00F = .ok (.rnd 0 0x0F) ∧ decode 0xD015 = .ok (.drw 0 1 5) ∧ decode 0xE3A1 = .ok (.sknp 3) ∧
  decode 0xF255 = .ok (.stRegs 2) ∧
  decode 0x5121 = .error .family5Nibble ∧ decode 0x8128 = .error .family8SubOp

/-! ## The fetch and the step -/

/-- The fetch is big-endian and each of its two addresses is masked separately (R42; masking is decision D5, log 6). -/
def Obligations.FetchIsBigEndianAndMasked : Prop :=
  ∀ (s : State) (a : Word),
    (s.fetch16 a).toNat = 256 * (s.memRead (a.toNat % 4096)).toNat + (s.memRead ((a.toNat + 1) % 4096)).toNat

/-- A store is seen by the very next fetch from it: the font area, the top of memory and code alike (R48). -/
def Obligations.FetchSeesStoredBytes : Prop :=
  ∀ (s : State) (a : Word) (hi lo : Byte),
    ((s.memWrite a.toNat hi).memWrite (a.toNat + 1) lo).fetch16 a = wordOfBytes hi lo

/-- `withFetchWord` places a well-formed instruction's word where the next step fetches and decodes exactly it: the
machine is then loaded and RUNNING, `pc` is as before, and the word at `pc` decodes to the instruction (the model's own
operation, log 23). -/
def Obligations.PlacedInstructionIsFetched : Prop :=
  ∀ (s : State) (i : Instr), i.WellFormed →
    (s.withFetchWord 16 (encode i).toNat).loaded = true ∧ (s.withFetchWord 16 (encode i).toNat).Running ∧
    (s.withFetchWord 16 (encode i).toNat).pc = s.pc ∧
    decode ((s.withFetchWord 16 (encode i).toNat).fetch16 s.pc) = .ok i

/-- A RUNNING step runs what the word at `pc` decodes to, on the state with `pc` advanced by 2; around it the call is
counted, and the last call of a tick is followed by the tick's end and the events of the gap (R186, R200; the cut of a
tick into its calls is the model's, log 22). -/
def Obligations.StepRunsTheDecodedInstruction : Prop :=
  ∀ (s : State) (i : Instr), s.loaded = true → s.Running → decode (s.fetch16 s.pc) = .ok i →
    step s = andThen (exec i (s.setPc (s.pc + 2))) State.afterCall ∧
    ∀ t : State, t.afterCall =
      if t.batch + 1 < t.params.stepsPerTick then .next (t.setBatch (t.batch + 1))
      else (t.endTick.setBatch 0).betweenTicks

/-- A RUNNING step on an undefined word raises `DecodeFailure(w, a)`: the latches hold the word and its address, `pc` is
`a + 2`, nothing else changes (R181; that such words fault is decision D8, log 9). -/
def Obligations.UndefinedWordRaisesDecodeFailure : Prop :=
  ∀ (s : State) (e : DecodeReject), s.loaded = true → s.Running → decode (s.fetch16 s.pc) = .error e →
    ∃ t, engineStep s = .next t ∧ step s = t.afterCall ∧ t.fault = .decodeFailure ∧ t.faultCode = 1 ∧
      t.faultWord = s.fetch16 s.pc ∧ t.faultAddr = s.pc ∧ t.pc = s.pc + 2 ∧ t.engineState = .halted ∧
      Frame [] [.programCounter, .faultLatches] s t

/-- R187: a call while PAUSED or HALTED changes nothing, fetches nothing, and still counts as a call of the tick. That a
step of the machine is one such call is the model's cut of the tick (log 22). -/
def Obligations.PausedOrHaltedCallChangesNothing : Prop :=
  ∀ s : State, s.fault ≠ .none ∨ s.waitReg ≠ none →
    engineStep s = .next s ∧
    (s.loaded = true → step s = s.afterCall) ∧
    (s.loaded = true → s.batch + 1 < s.params.stepsPerTick → step s = .next { s with batch := s.batch + 1 })

/-- With no image loaded a tick has no effect; only the environment's events between ticks act (R22, R200; decision D21,
log 21). -/
def Obligations.UnloadedTickDoesNothing : Prop :=
  ∀ s : State, s.loaded = false →
    tick s = .next s ∧ step s = s.betweenTicks ∧ (s.env = [] → step s = .next s)

/-- REFINEMENT: from the start of a tick, `STEPS_PER_TICK` steps of the machine are the tick as R200 writes it, followed
by the events of the gap after it (R193; the cut is the model's, log 22). -/
def Obligations.TickIsItsSteps : Prop :=
  ∀ s : State, s.loaded = true → s.batch = 0 → 1 ≤ s.params.stepsPerTick →
    andThen (tick s) State.betweenTicks = core.run s.params.stepsPerTick s

/-- Every instruction, in every state, completes in a next state, and leaves the loaded bit, the inputs, the outputs,
the tick's position and the parameters as they were (R186, R193, R199). For `SYS`, `RET` on an empty stack and `CALL` on a
full one the next state is the one in which the fault is latched: that a fault is a latched state and no stop of the
machine is decision D19 (log 19; log 9 for `SYS`). That `frame` holds its sample inside a batch is the model's choice
(log 31). -/
def Obligations.EveryInstructionCompletesInsideTheEngine : Prop :=
  ∀ (i : Instr) (s : State), ∃ t, exec i s = .next t ∧
    ∀ p ∈ [Part.loadedBit, .inputs, .outputs, .batch, .params], p.Same s t

/-! ## Memory and reset -/

/-- Canonical memories that read the same at every address of the machine are equal data (log 27). -/
def Obligations.EqualReadingsAreEqualMemories : Prop :=
  ∀ (font : List Byte) (m n : Memory), Memory.wf font m → Memory.wf font n →
    (∀ a < memSize, m.read font a = n.read font a) → m = n

/-- R221: after reset memory is zero but for the 80 bytes of `FONT` at 0x000 to 0x04F, for every font; and `reset`
issued in any state gives that memory. -/
def Obligations.ResetMemoryIsTheFontAndZeros : Prop :=
  ∀ (s : State) (a : Nat), s.params.font.length = 80 → a < 4096 →
    s.resetMachine.memRead a = if h : a < s.params.font.length then s.params.font[a] else 0

/-- The values of R33 after `reset` issued in any state (R220), and at `State.reset`, which is what `reset` leaves with
R4's default parameters. `pc`, `mem` and `disp` are DOC0's; the zeros of `V`, `I`, `DT`, `ST`, the stack, the latch and the
fault status are decision D4 (log 5); `loaded` is D21; that the parameters stand is log 26 and the position in the tick
log 22. Of the parameters' defaults, glyphs 1 to F are D2 (log 4), the stack depth D7 (log 8), the flag of `SHL` D11
(log 11). -/
def Obligations.ResetValues : Prop :=
  (∀ s : State, (∀ q, s.resetMachine.getV q = 0) ∧ s.resetMachine.i = 0 ∧ s.resetMachine.pc = 0x200 ∧
    s.resetMachine.stack = [] ∧ s.resetMachine.dt = 0 ∧ s.resetMachine.st = 0 ∧ s.resetMachine.waitReg = none ∧
    s.resetMachine.fault = .none ∧ s.resetMachine.faultCode = 0 ∧ s.resetMachine.faultWord = 0 ∧
    s.resetMachine.faultAddr = 0 ∧ s.resetMachine.loaded = false ∧ (∀ k, s.resetMachine.disp.cell k = false) ∧
    s.resetMachine.soundOut = false ∧ (∀ k, s.resetMachine.frame.cell k = false) ∧ s.resetMachine.batch = 0 ∧
    s.resetMachine.params = s.params) ∧
  State.reset.resetMachine = State.reset ∧
  (State.reset.memRead 0, State.reset.memRead 1, State.reset.memRead 2, State.reset.memRead 3, State.reset.memRead 4) =
    (0xF0, 0x90, 0x90, 0x90, 0xF0) ∧
  (∀ a, 80 ≤ a → a < 4096 → State.reset.memRead a = 0) ∧
  State.reset.params.stackDepth = none ∧ State.reset.params.stepsPerTick = 10 ∧ State.reset.params.tickHz = 60 ∧
  State.reset.params.shlFlagNormalize = false ∧
  State.reset.params.font =
    [0xF0, 0x90, 0x90, 0x90, 0xF0, 0x20, 0x60, 0x20, 0x20, 0x70, 0xF0, 0x10, 0xF0, 0x80, 0xF0, 0xF0, 0x10, 0xF0, 0x10, 0xF0] ++
    [0x90, 0x90, 0xF0, 0x10, 0x10, 0xF0, 0x80, 0xF0, 0x10, 0xF0, 0xF0, 0x80, 0xF0, 0x90, 0xF0, 0xF0, 0x10, 0x20, 0x40, 0x40] ++
    [0xF0, 0x90, 0xF0, 0x90, 0xF0, 0xF0, 0x90, 0xF0, 0x10, 0xF0, 0xF0, 0x90, 0xF0, 0x90, 0x90, 0xE0, 0x90, 0xE0, 0x90, 0xE0] ++
    [0xF0, 0x80, 0x80, 0x80, 0xF0, 0xE0, 0x90, 0x90, 0x90, 0xE0, 0xF0, 0x80, 0xF0, 0x80, 0xF0, 0xF0, 0x80, 0xF0, 0x80, 0x80]

/-- The invariant holds at reset. Its clauses rest on choices: the latches at zero with no fault are decision D4 (log 5),
the unloaded machine as reset left it D21 (log 21; what reset leaves of the inputs, log 26), the bound of the stack D7
(log 8), the parameters as a field log 1, the position in the tick log 22, canonical memory log 27. -/
def Obligations.InvariantHoldsAtReset : Prop := State.reset.Inv

/-- INVARIANT: every step keeps it, whatever the state, the program and the environment do. Its clauses rest on choices.
What a fault leaves and that it stays (`no_fault_latches`, `halted_not_waiting`, `halted_pc` and the three clauses on the
latched word) is decision D19 (log 19, with log 5 for the latches at zero after a reset and log 29 for the word): the
latched values are the spec's own invention, and after an underflow R182 says that `pc` must not be relied on, so
`halted_pc` is a fact about this model. Which words raise `DecodeFailure` is D8 and D9 (log 9), the bound of the stack and
its overflow D7 (log 8), an unloaded machine as reset left it D21 (logs 21, 26), events only between ticks D20 (log 20),
the parameters as a field log 1, the position in the tick log 22, canonical memory log 27. -/
def Obligations.StepKeepsTheInvariant : Prop :=
  ∀ s t : State, s.Inv → step s = .next t → t.Inv

/-! ## Control -/

/-- R80: `CLS` (word 0x00E0) clears every cell and changes nothing else. -/
def Obligations.ClsClearsTheDisplay : Prop :=
  encode .cls = 0x00E0 ∧
  ∀ s : State, ∃ t, exec .cls s = .next t ∧ (∀ k : Nat, k < 2048 → t.disp.cell k = false) ∧ Frame [] [.display] s t

/-- R81: `RET` (word 0x00EE) pops the newest return address into `pc`; on an empty stack it raises `StackUnderflow` and
`pc` is not popped. The latches then hold 0x00EE and the address of the `RET` (R182, decision D19, log 19). -/
def Obligations.RetPopsOrUnderflows : Prop :=
  encode .ret = 0x00EE ∧
  (∀ (s : State) (a : Word) (l : List Word), s.stack = a :: l →
    ∃ t, exec .ret s = .next t ∧ t.pc = a ∧ t.stack = l ∧ Frame [] [.programCounter, .returnStack] s t) ∧
  (∀ s : State, s.stack = [] →
    ∃ t, exec .ret s = .next t ∧ t.fault = .stackUnderflow ∧ t.faultCode = 2 ∧ t.faultWord = 0x00EE ∧
      t.faultAddr + 2 = s.pc ∧ t.engineState = .halted ∧ Frame [] [.faultLatches] s t)

/-- `SYS nnn` raises `DecodeFailure` with its word and address and changes nothing else (R82; decision D9, log 9). -/
def Obligations.SysRaisesDecodeFailure : Prop :=
  ∀ (nnn : Addr12) (s : State), ∃ t, exec (.sys nnn) s = .next t ∧ t.fault = .decodeFailure ∧ t.faultCode = 1 ∧
    t.faultWord.toNat = nnn.toNat ∧ t.faultAddr + 2 = s.pc ∧ t.engineState = .halted ∧ Frame [] [.faultLatches] s t

/-- R83 and R85: `JP nnn` sets `pc` to the zero-extended target; `JP V0, nnn` to the sum of the target and `V[0]`, not
truncated to 12 bits. No target faults, and nothing else changes. -/
def Obligations.JumpsSetThePc : Prop :=
  (∀ (nnn : Addr12) (s : State), ∃ t, exec (.jp nnn) s = .next t ∧ t.pc.toNat = nnn.toNat ∧
    Frame [] [.programCounter] s t) ∧
  (∀ (nnn : Addr12) (s : State), ∃ t, exec (.jpV0 nnn) s = .next t ∧
    t.pc.toNat = nnn.toNat + (s.getV 0).toNat ∧ Frame [] [.programCounter] s t)

/-- `CALL nnn` pushes the address after it and jumps; with a finite `STACK_DEPTH` that is reached it raises
`StackOverflow` instead and pushes nothing (R84, R183; the parameter is decision D7, log 8). -/
def Obligations.CallPushesOrOverflows : Prop :=
  (∀ (nnn : Addr12) (s : State), s.params.stackDepth ≠ some s.stack.length →
    ∃ t, exec (.call nnn) s = .next t ∧ t.pc.toNat = nnn.toNat ∧ t.stack = s.pc :: s.stack ∧
      Frame [] [.programCounter, .returnStack] s t) ∧
  (∀ (nnn : Addr12) (s : State), s.params.stackDepth = some s.stack.length →
    ∃ t, exec (.call nnn) s = .next t ∧ t.fault = .stackOverflow ∧ t.faultCode = 3 ∧
      t.faultWord.toNat = 0x2000 + nnn.toNat ∧ t.faultAddr + 2 = s.pc ∧ t.engineState = .halted ∧
      Frame [] [.faultLatches] s t)

/-- A `RET` run with the stack a `CALL` left, whatever the subroutine did to the rest, comes back to the address after
the `CALL` and leaves the stack the `CALL` found (R81, R84). -/
def Obligations.RetComesBackFromCall : Prop :=
  ∀ (nnn : Addr12) (s t u : State), s.params.stackDepth ≠ some s.stack.length → exec (.call nnn) s = .next t →
    u.stack = t.stack → ∃ r, exec .ret u = .next r ∧ r.pc = s.pc ∧ r.stack = s.stack

/-! ## Skips -/

/-- R90 to R93: the compare skips add 2 more to the advanced `pc` exactly when their condition holds, and change nothing
else. The sum is modulo 65536 (R15; decision D6, log 7). -/
def Obligations.CompareSkipsAdvanceThePc : Prop :=
  (∀ (x : Reg) (kk : Byte) (s : State), ∃ t, exec (.seImm x kk) s = .next t ∧
    t.pc = (if s.getV x = kk then s.pc + 2 else s.pc) ∧ Frame [] [.programCounter] s t) ∧
  (∀ (x : Reg) (kk : Byte) (s : State), ∃ t, exec (.sneImm x kk) s = .next t ∧
    t.pc = (if s.getV x ≠ kk then s.pc + 2 else s.pc) ∧ Frame [] [.programCounter] s t) ∧
  (∀ (x y : Reg) (s : State), ∃ t, exec (.seReg x y) s = .next t ∧
    t.pc = (if s.getV x = s.getV y then s.pc + 2 else s.pc) ∧ Frame [] [.programCounter] s t) ∧
  (∀ (x y : Reg) (s : State), ∃ t, exec (.sneReg x y) s = .next t ∧
    t.pc = (if s.getV x ≠ s.getV y then s.pc + 2 else s.pc) ∧ Frame [] [.programCounter] s t)

/-- `SKP` skips when the key with the register's index is pressed, `SKNP` when it is not; an index of 16 to 255 is not
pressed (R150 to R152; decision D15, log 15). Nothing else changes, the key levels included. -/
def Obligations.KeySkipsTestTheLevel : Prop :=
  ∀ (x : Reg) (s : State),
    (∃ t, exec (.skp x) s = .next t ∧ Frame [] [.programCounter] s t ∧
      t.pc = if (s.getV x).toNat ≤ 15 ∧ s.keys.getLsbD (s.getV x).toNat = true then s.pc + 2 else s.pc) ∧
    (∃ t, exec (.sknp x) s = .next t ∧ Frame [] [.programCounter] s t ∧
      t.pc = if (s.getV x).toNat ≤ 15 ∧ s.keys.getLsbD (s.getV x).toNat = true then s.pc else s.pc + 2)

/-! ## Load and arithmetic -/

/-- R102 and R104: `LD Vx, kk` and `LD Vx, Vy` write `V[x]`, `VF` included as a plain register, and change nothing
else. -/
def Obligations.RegisterLoads : Prop :=
  (∀ (x : Reg) (kk : Byte) (s : State), ∃ t, exec (.ldImm x kk) s = .next t ∧ t.getV x = kk ∧ Frame [x] [] s t) ∧
  (∀ (x y : Reg) (s : State), ∃ t, exec (.ldReg x y) s = .next t ∧ t.getV x = s.getV y ∧ Frame [x] [] s t)

/-- `ADD Vx, kk` adds modulo 256 and writes no flag (R103; decision D13, log 13). -/
def Obligations.AddImmediateWraps : Prop :=
  ∀ (x : Reg) (kk : Byte) (s : State), ∃ t, exec (.addImm x kk) s = .next t ∧
    (t.getV x).toNat = ((s.getV x).toNat + kk.toNat) % 256 ∧ Frame [x] [] s t

/-- `OR`, `AND`, `XOR` work bit by bit and write no flag (R105 to R107; decision D13, log 13). -/
def Obligations.LogicWorksBitByBit : Prop :=
  ∀ (x y : Reg) (s : State),
    (∃ t, exec (.or x y) s = .next t ∧ Frame [x] [] s t ∧
      ∀ b < 8, (t.getV x).getLsbD b = ((s.getV x).getLsbD b || (s.getV y).getLsbD b)) ∧
    (∃ t, exec (.and x y) s = .next t ∧ Frame [x] [] s t ∧
      ∀ b < 8, (t.getV x).getLsbD b = ((s.getV x).getLsbD b && (s.getV y).getLsbD b)) ∧
    (∃ t, exec (.xor x y) s = .next t ∧ Frame [x] [] s t ∧
      ∀ b < 8, (t.getV x).getLsbD b = ((s.getV x).getLsbD b != (s.getV y).getLsbD b))

/-- DOC0's property of the add (95_test_vectors.md S1), for a destination other than `VF`: the sum modulo 256, and `VF`
1 when the sum exceeds 255, else 0. `y` may be `VF`: its old value is the addend (R101, decision D10, log 10). -/
def Obligations.AddSetsSumAndCarry : Prop :=
  ∀ (x y : Reg) (s : State), x ≠ 15 → ∃ t, exec (.addReg x y) s = .next t ∧
    (t.getV x).toNat = ((s.getV x).toNat + (s.getV y).toNat) % 256 ∧
    t.getV 15 = (if (s.getV x).toNat + (s.getV y).toNat > 255 then 1 else 0) ∧ Frame [x, 15] [] s t

/-- DOC0's property of the subtract (95_test_vectors.md S2) and the reverse subtract, for a destination other than `VF`:
the difference modulo 256, and `VF` 1 when the minuend is strictly greater, else 0 (R100, R109, R111). -/
def Obligations.SubtractsSetDifferenceAndNoBorrow : Prop :=
  ∀ (x y : Reg) (s : State), x ≠ 15 →
    (∃ t, exec (.sub x y) s = .next t ∧
      ((t.getV x).toNat : Int) = (((s.getV x).toNat : Int) - (s.getV y).toNat) % 256 ∧
      t.getV 15 = (if (s.getV x).toNat > (s.getV y).toNat then 1 else 0) ∧ Frame [x, 15] [] s t) ∧
    (∃ t, exec (.subn x y) s = .next t ∧
      ((t.getV x).toNat : Int) = (((s.getV y).toNat : Int) - (s.getV x).toNat) % 256 ∧
      t.getV 15 = (if (s.getV y).toNat > (s.getV x).toNat then 1 else 0) ∧ Frame [x, 15] [] s t)

/-- `SHR` and `SHL` shift `V[x]` by one, whatever `y` (decision D12, log 12), for a destination other than `VF`; `VF` is
the bit moved out: 1 or 0 for `SHR`; for `SHL` 0x80 or 0, or 1 or 0 with `SHL_FLAG_NORMALIZE` (R110, R112; decision D11,
log 11). -/
def Obligations.ShiftsMoveOneBitIntoTheFlag : Prop :=
  ∀ (x y : Reg) (s : State), x ≠ 15 →
    (∃ t, exec (.shr x y) s = .next t ∧ (t.getV x).toNat = (s.getV x).toNat / 2 ∧
      (t.getV 15).toNat = (s.getV x).toNat % 2 ∧ Frame [x, 15] [] s t) ∧
    (∃ t, exec (.shl x y) s = .next t ∧ (t.getV x).toNat = (s.getV x).toNat * 2 % 256 ∧
      (t.getV 15).toNat = (s.getV x).toNat / 128 * (if s.params.shlFlagNormalize then 1 else 128) ∧
      Frame [x, 15] [] s t)

/-- With `VF` itself as destination the flag is lost and `VF` holds the result of the latched operands: the result is
written last (R101; decision D10, log 10). -/
def Obligations.FlagRegisterAsDestinationHoldsTheResult : Prop :=
  ∀ (y : Reg) (s : State),
    (∃ t, exec (.addReg 15 y) s = .next t ∧ (t.getV 15).toNat = ((s.getV 15).toNat + (s.getV y).toNat) % 256 ∧
      Frame [15] [] s t) ∧
    (∃ t, exec (.sub 15 y) s = .next t ∧
      ((t.getV 15).toNat : Int) = (((s.getV 15).toNat : Int) - (s.getV y).toNat) % 256 ∧ Frame [15] [] s t) ∧
    (∃ t, exec (.subn 15 y) s = .next t ∧
      ((t.getV 15).toNat : Int) = (((s.getV y).toNat : Int) - (s.getV 15).toNat) % 256 ∧ Frame [15] [] s t) ∧
    (∃ t, exec (.shr 15 y) s = .next t ∧ (t.getV 15).toNat = (s.getV 15).toNat / 2 ∧ Frame [15] [] s t) ∧
    (∃ t, exec (.shl 15 y) s = .next t ∧ (t.getV 15).toNat = (s.getV 15).toNat * 2 % 256 ∧ Frame [15] [] s t)

/-! ## Address register and random -/

/-- R120 and R122: `LD I, nnn` zero-extends the immediate into `I`; `LD F, Vx` sets `I` to five times the whole byte.
Nothing else changes. -/
def Obligations.AddressLoads : Prop :=
  (∀ (nnn : Addr12) (s : State), ∃ t, exec (.ldI nnn) s = .next t ∧ t.i.toNat = nnn.toNat ∧
    Frame [] [.addressRegister] s t) ∧
  (∀ (x : Reg) (s : State), ∃ t, exec (.ldF x) s = .next t ∧ t.i.toNat = (s.getV x).toNat * 5 ∧
    Frame [] [.addressRegister] s t)

/-- `ADD I, Vx` adds modulo 65536, not masked to 12 bits, and writes no flag (R121; decisions D6 and D13, logs 7, 13). -/
def Obligations.AddToAddressWraps : Prop :=
  ∀ (x : Reg) (s : State), ∃ t, exec (.addI x) s = .next t ∧
    t.i.toNat = (s.i.toNat + (s.getV x).toNat) % 65536 ∧ Frame [] [.addressRegister] s t

/-- `RND Vx, kk` writes the next draw masked by `kk`, so no bit outside `kk` and no value above `kk`; one draw is used and
nothing else changes. The draw is the free byte `Config.draw8 s.draws`, and the statement holds for every value of it
(R123; decision D14, log 14). -/
def Obligations.RandomByteIsMasked : Prop :=
  ∀ (x : Reg) (kk : Byte) (s : State), ∃ t : State, exec (.rnd x kk) s = .next t ∧
    t.getV x = Config.draw8 s.draws &&& kk ∧ (t.getV x).toNat ≤ kk.toNat ∧ t.draws = s.draws + 1 ∧
    Frame [x] [.draws] s t

/-! ## Display -/

/-- R131: the one-shot wrap, equal to the remainder exactly in the interval [-b, 2b). -/
def Obligations.WrapIsOneShot : Prop :=
  ∀ c b : Int, 0 < b →
    (b ≤ c → wrap1 c b = c - b) ∧ (c < 0 → wrap1 c b = c + b) ∧ (0 ≤ c → c < b → wrap1 c b = c) ∧
    (wrap1 c b = c % b ↔ -b ≤ c ∧ c < 2 * b) ∧ wrap1 128 64 = 64 ∧ wrap1 64 32 = 32

/-- `SetPixel` toggles the one cell its index names and reports an erase exactly when that cell was lit; an index outside
the buffer changes no cell and erases none (R132, R133; decision D17, log 17). The index is that of the two wrapped
coordinates (R132): within one bound-width on each side it is the ordinary wraparound, further right it falls `x1 div 64`
rows lower, and further down it is outside the buffer (R139). -/
def Obligations.SetPixelTogglesOneCell : Prop :=
  (∀ (d : Display) (cx cy : Int),
    (∀ k : Nat, k < 2048 → (setPixel d cx cy).1.cell k = if pixelIndex cx cy = (k : Int) then !d.cell k else d.cell k) ∧
    ((setPixel d cx cy).2 = true ↔ ∃ k : Nat, k < 2048 ∧ pixelIndex cx cy = (k : Int) ∧ d.cell k = true)) ∧
  (∀ cx cy : Int, pixelIndex cx cy = wrap1 cx 64 + 64 * wrap1 cy 32 ∧
    (-64 ≤ cx → cx < 128 → -32 ≤ cy → cy < 64 → pixelIndex cx cy = cx % 64 + 64 * (cy % 32)) ∧
    (128 ≤ cx → -32 ≤ cy → cy < 64 → pixelIndex cx cy = (cx - 64) % 64 + 64 * (cy % 32 + (cx - 64) / 64)) ∧
    (-64 ≤ cx → 64 ≤ cy → 2048 ≤ pixelIndex cx cy))

/-- "`setPixel` is its own inverse", for every integer pair; of the two calls exactly one reports an erase when the index
is inside the buffer, and none when it is outside (R138, S3; D17 for the outside). -/
def Obligations.SetPixelIsItsOwnInverse : Prop :=
  ∀ (d : Display) (cx cy : Int),
    (setPixel (setPixel d cx cy).1 cx cy).1 = d ∧
    (0 ≤ pixelIndex cx cy ∧ pixelIndex cx cy < 2048 →
      (setPixel (setPixel d cx cy).1 cx cy).2 = !(setPixel d cx cy).2) ∧
    (¬ (0 ≤ pixelIndex cx cy ∧ pixelIndex cx cy < 2048) →
      (setPixel d cx cy).2 = false ∧ (setPixel (setPixel d cx cy).1 cx cy).2 = false)

/-- Within one draw no cell is reached twice (R139), for every position and every pair of sprite rows and columns. -/
def Obligations.DrawReachesNoCellTwice : Prop :=
  ∀ vx vy row row' col col' : Nat, row < 15 → row' < 15 → col < 8 → col' < 8 →
    vx < 256 → vy < 256 →
    pixelIndex ((vx + col : Nat) : Int) ((vy + row : Nat) : Int) =
      pixelIndex ((vx + col' : Nat) : Int) ((vy + row' : Nat) : Int) → row = row' ∧ col = col'

/-- HEADLINE: `DRW Vx, Vy, n` toggles exactly the cells its sprite covers, sets `VF` to 1 if one of them was lit and to 0
if none was, and changes nothing else; for every `x`, `y` (`VF` included, read before it is written: D10), every `n` and
every position, on and off the screen (R136, R139; D10, D16, D17, D18: logs 10, 16, 17, 18). -/
def Obligations.DrawXorsTheSprite : Prop :=
  ∀ (x y : Reg) (n : Nibble) (s : State), ∃ t, exec (.drw x y n) s = .next t ∧
    (∀ k : Nat, k < 2048 → SpriteCovers s x y n k → t.disp.cell k = !s.disp.cell k) ∧
    (∀ k : Nat, k < 2048 → ¬ SpriteCovers s x y n k → t.disp.cell k = s.disp.cell k) ∧
    ((∃ k : Nat, k < 2048 ∧ SpriteCovers s x y n k ∧ s.disp.cell k = true) → t.getV 15 = 1) ∧
    ((¬ ∃ k : Nat, k < 2048 ∧ SpriteCovers s x y n k ∧ s.disp.cell k = true) → t.getV 15 = 0) ∧
    Frame [15] [.display] s t

/-- "Drawing the same sprite twice at the same position": the second draw restores the display to what it was before the
first, and reports a collision when the sprite covers a cell that was clear before the first (R138). The position is the
same when the first draw's flag did not change `V[x]` or `V[y]`. -/
def Obligations.DrawingTwiceRestoresTheDisplay : Prop :=
  ∀ (x y : Reg) (n : Nibble) (s t : State), exec (.drw x y n) s = .next t → t.getV x = s.getV x → t.getV y = s.getV y →
    ∃ u, exec (.drw x y n) t = .next u ∧ u.disp = s.disp ∧
      ((∃ k : Nat, k < 2048 ∧ SpriteCovers s x y n k ∧ s.disp.cell k = false) → u.getV 15 = 1)

/-! ## Timers, key wait, decimal, blocks -/

/-- `LD Vx, DT`, `LD DT, Vx`, `LD ST, Vx` copy the byte and change nothing else (R160, R162, R163). -/
def Obligations.TimerTransfersCopyTheByte : Prop :=
  ∀ (x : Reg) (s : State),
    (∃ t, exec (.ldVxDt x) s = .next t ∧ t.getV x = s.dt ∧ Frame [x] [] s t) ∧
    (∃ t, exec (.ldDtVx x) s = .next t ∧ t.dt = s.getV x ∧ Frame [] [.delayTimer] s t) ∧
    (∃ t, exec (.ldStVx x) s = .next t ∧ t.st = s.getV x ∧ Frame [] [.soundTimer] s t)

/-- R161: `LD Vx, K` pauses a RUNNING engine and writes no register, whatever keys are down; steps are then no-ops and
the timers stand still; the key press that comes writes its index to `V[x]` and the engine is RUNNING again, `pc` still
at the address after the instruction. -/
def Obligations.KeyWaitPausesUntilAKeyPress : Prop :=
  ∀ (x : Reg) (s : State), s.fault = .none → ∃ t, exec (.ldVxK x) s = .next t ∧ t.waitReg = some x ∧
    t.engineState = .paused ∧ Frame [] [.waitRegister] s t ∧ engineStep t = .next t ∧ t.timerPhase = t ∧
    ∀ k : Key, ((t.keyPress k).getV x).toNat = k.val ∧ (t.keyPress k).Running ∧
      Frame [x] [.waitRegister] s (t.keyPress k)

/-- A key press with no wait pending, or on a HALTED machine, is discarded (R191, R184; decisions D19, D20, logs 19, 20). -/
def Obligations.KeyPressWithoutWaitIsDiscarded : Prop :=
  ∀ (k : Key) (s : State), s.fault ≠ .none ∨ s.waitReg = none → s.keyPress k = s

/-- Of any number of key presses in one gap only the first can have an effect, whatever the engine's state: it ends a
wait, and the others find none (R191, R193; decision D20, log 20). -/
def Obligations.OnlyTheFirstKeyPressCounts : Prop :=
  ∀ (k : Key) (ks : List Key) (s : State),
    State.applyEvents ((k :: ks).map Event.keyPress) s = .next (s.keyPress k)

/-- `LD B, Vx` stores the hundreds, tens and ones of `V[x]` at `I`, `I + 1`, `I + 2`, each address masked separately
(decision D5, log 6), and changes nothing else, `I` included (R165; decision D13, log 13). -/
def Obligations.DecimalStoreWritesThreeDigits : Prop :=
  ∀ (x : Reg) (s : State), ∃ t, exec (.ldB x) s = .next t ∧
    (t.memRead s.i.toNat).toNat = (s.getV x).toNat / 100 ∧
    (t.memRead (s.i.toNat + 1)).toNat = (s.getV x).toNat % 100 / 10 ∧
    (t.memRead (s.i.toNat + 2)).toNat = (s.getV x).toNat % 10 ∧
    MemSameOutside (s.dataAddr 0) 3 s t ∧ Frame [] [.memory] s t

/-- `LD [I], Vx` stores `V[0]` to `V[x]` at `I` to `I + x`, each address masked, and changes nothing else, `I` included
(R166; decision D13, log 13). -/
def Obligations.BlockStoreWritesRegistersToX : Prop :=
  ∀ (x : Reg) (s : State), ∃ t, exec (.stRegs x) s = .next t ∧
    (∀ r : Reg, r ≤ x → t.memRead (s.i.toNat + r.val) = s.getV r) ∧
    MemSameOutside (s.dataAddr 0) (x.val + 1) s t ∧ Frame [] [.memory] s t

/-- `LD Vx, [I]` loads `V[0]` to `V[x]` from `I` to `I + x`, each address masked, and changes nothing else, `I` and the
registers above `x` included (R167; decision D13, log 13). -/
def Obligations.BlockLoadReadsRegistersToX : Prop :=
  ∀ (x : Reg) (s : State), ∃ t, exec (.ldRegs x) s = .next t ∧
    (∀ r : Reg, r ≤ x → t.getV r = s.memRead (s.i.toNat + r.val)) ∧ Frame (regsUpTo x) [] s t

/-- What a block store wrote, the block load of the same length reads back into whatever registers (R166, R167). -/
def Obligations.BlockLoadRestoresTheStoredRegisters : Prop :=
  ∀ (x : Reg) (s t u : State), exec (.stRegs x) s = .next t → u.i = t.i → (∀ a, u.memRead a = t.memRead a) →
    ∃ r, exec (.ldRegs x) u = .next r ∧ ∀ q : Reg, q ≤ x → r.getV q = s.getV q

/-! ## Ticks, faults and the whole machine -/

/-- R198: `tickTimers()` takes 1 from each timer, floored at 0, and changes nothing else; `n` of them take `n`, so no
timer ever goes below 0; no instruction but `LD DT, Vx` writes `DT`, none but `LD ST, Vx` writes `ST`; reset writes 0
(decision D4, log 5); and a tick's end applies it to a RUNNING engine and not to a PAUSED one. -/
def Obligations.TimersCountDownToZero : Prop :=
  (∀ s : State, s.tickTimers.dt.toNat = s.dt.toNat - 1 ∧ s.tickTimers.st.toNat = s.st.toNat - 1 ∧
    Frame [] [.delayTimer, .soundTimer] s s.tickTimers) ∧
  (∀ (n : Nat) (s : State), (State.tickTimers^[n] s).dt.toNat = s.dt.toNat - n ∧
    (State.tickTimers^[n] s).st.toNat = s.st.toNat - n) ∧
  (∀ (i : Instr) (s t : State), exec i s = .next t →
    ((∀ x, i ≠ .ldDtVx x) → t.dt = s.dt) ∧ ((∀ x, i ≠ .ldStVx x) → t.st = s.st)) ∧
  (∀ s : State, s.resetMachine.dt = 0 ∧ s.resetMachine.st = 0) ∧
  (∀ s : State, (s.Running → s.endTick.dt = s.tickTimers.dt ∧ s.endTick.st = s.tickTimers.st) ∧
    (s.waitReg ≠ none → s.endTick.dt = s.dt ∧ s.endTick.st = s.st))

/-- R199 and R200: at a tick's end `sound_out` becomes `ST > 0`, after the decrement, so a RUNNING tick of one sound step
is silent, and `frame` becomes the display, which stands; in a tick that ends PAUSED or HALTED `ST` stands (for HALTED:
decision D19, log 19). Between tick ends neither a call nor an event of the gap but reset changes either output: R199 says
so of `sound_out`; that `frame` holds its sample inside a batch is the model's choice (R135 leaves it open; log 31). -/
def Obligations.SoundOutputFollowsTheTimer : Prop :=
  (∀ s : State, (s.endTick.soundOut = true ↔ 0 < s.endTick.st.toNat) ∧
    (s.Running → (s.endTick.soundOut = true ↔ 1 < s.st.toNat)) ∧ (¬ s.Running → s.endTick.st = s.st) ∧
    s.endTick.frame = s.disp ∧ s.endTick.disp = s.disp) ∧
  (∀ s t : State, engineStep s = .next t → Part.outputs.Same s t) ∧
  (∀ (e : Event) (s t : State), e ≠ .reset → s.applyEvent e = .next t → Part.outputs.Same s t)

/-- A HALTED machine stays as the fault left it: a step changes nothing but the position in the tick, the outputs and
the inputs, unless the environment resets it in the coming gap (R184; decision D19, log 19). -/
def Obligations.HaltedMachineStaysHalted : Prop :=
  ∀ s t : State, s.loaded = true → s.fault ≠ .none → (∀ es ∈ s.env.head?, Event.reset ∉ es) → step s = .next t →
    t.engineState = .halted ∧ Frame [] [.batch, .outputs, .inputs] s t

/-- R185: the engine's transitions. From RUNNING an instruction leads to PAUSED exactly when it is `LD Vx, K`, and to
HALTED exactly when it records a fault; from PAUSED a key press leads to RUNNING; from any state reset leads to
RUNNING; no call leaves PAUSED or HALTED, and neither new key levels nor a load nor a tick's end change the engine's
state. Which faults there are rests on decisions D7 and D9 (logs 8, 9). -/
def Obligations.EngineStateTransitions : Prop :=
  (∀ (i : Instr) (s t : State), s.engineState = .running → exec i s = .next t →
    (t.engineState = .paused ↔ ∃ x, i = .ldVxK x) ∧ (t.engineState = .halted ↔ t.fault ≠ .none) ∧
    (t.fault ≠ .none ↔ (∃ nnn, i = .sys nnn) ∨ (i = .ret ∧ s.stack = []) ∨
      ((∃ nnn, i = .call nnn) ∧ s.params.stackDepth = some s.stack.length))) ∧
  (∀ (k : Key) (s : State), s.engineState = .paused → (s.keyPress k).engineState = .running) ∧
  (∀ s : State, s.resetMachine.engineState = .running) ∧
  (∀ s t : State, s.engineState ≠ .running → engineStep s = .next t → t.engineState = s.engineState) ∧
  (∀ (s : State) (levels : BitVec 16), (s.setKeys levels).engineState = s.engineState ∧
    s.endTick.engineState = s.engineState) ∧
  (∀ (s t : State) (image : List Byte), s.loadImage image = .next t → t.engineState = s.engineState)

/-- The access summary's writers (R34), for every general register and every part of the state: each is written by the
instructions named there and by no other, and the parts named last by none. `VF` as a flag is register 15 (D3, log 3); who
writes no flag, and that the block copies leave `I`, is D13 (log 13); which instructions fault D7 and D9 (logs 8, 9). -/
def Obligations.OnlyTheNamedInstructionsWriteEachPart : Prop :=
  ∀ (i : Instr) (s t : State), exec i s = .next t →
    (∀ q : Reg, t.getV q ≠ s.getV q →
      (∃ x y, (i = .addReg x y ∨ i = .sub x y ∨ i = .subn x y ∨ i = .shr x y ∨ i = .shl x y) ∧ (q = x ∨ q = 15)) ∨
      (q = 15 ∧ ∃ x y n, i = .drw x y n) ∨ (∃ kk, i = .ldImm q kk ∨ i = .addImm q kk ∨ i = .rnd q kk) ∨
      (∃ y, i = .ldReg q y ∨ i = .or q y ∨ i = .and q y ∨ i = .xor q y) ∨ i = .ldVxDt q ∨
      ∃ x, q ≤ x ∧ i = .ldRegs x) ∧
    (¬ Part.addressRegister.Same s t → (∃ nnn, i = .ldI nnn) ∨ (∃ x, i = .addI x) ∨ ∃ x, i = .ldF x) ∧
    (¬ Part.programCounter.Same s t → i = .ret ∨ (∃ nnn, i = .jp nnn ∨ i = .call nnn ∨ i = .jpV0 nnn) ∨
      (∃ x kk, i = .seImm x kk ∨ i = .sneImm x kk) ∨ (∃ x y, i = .seReg x y ∨ i = .sneReg x y) ∨
      ∃ x, i = .skp x ∨ i = .sknp x) ∧
    (¬ Part.returnStack.Same s t → (∃ nnn, i = .call nnn) ∨ i = .ret) ∧
    (¬ Part.delayTimer.Same s t → ∃ x, i = .ldDtVx x) ∧
    (¬ Part.soundTimer.Same s t → ∃ x, i = .ldStVx x) ∧
    (¬ Part.waitRegister.Same s t → ∃ x, i = .ldVxK x) ∧
    (¬ Part.faultLatches.Same s t → (∃ nnn, i = .sys nnn) ∨ i = .ret ∨ ∃ nnn, i = .call nnn) ∧
    (¬ Part.display.Same s t → i = .cls ∨ ∃ x y n, i = .drw x y n) ∧
    (¬ Part.memory.Same s t → (∃ x, i = .ldB x) ∨ ∃ x, i = .stRegs x) ∧
    (¬ Part.draws.Same s t → ∃ x kk, i = .rnd x kk) ∧
    ∀ p ∈ [Part.loadedBit, .outputs, .inputs, .batch, .params], p.Same s t

/-- `VF` as a flag (R11): an instruction that changes `V[15]` is a flag-writing one (`ADD`, `SUB`, `SUBN`, `SHR`, `SHL`
of registers, `DRW`) or one that names register 15 as its destination (D3, D13: logs 3, 13). -/
def Obligations.FlagRegisterWriters : Prop :=
  ∀ (i : Instr) (s t : State), exec i s = .next t → t.getV 15 ≠ s.getV 15 →
    (∃ x y, i = .addReg x y ∨ i = .sub x y ∨ i = .subn x y ∨ i = .shr x y ∨ i = .shl x y) ∨
    (∃ x y n, i = .drw x y n) ∨
    (∃ kk, i = .ldImm 15 kk ∨ i = .addImm 15 kk ∨ i = .rnd 15 kk) ∨
    (∃ y, i = .ldReg 15 y ∨ i = .or 15 y ∨ i = .and 15 y ∨ i = .xor 15 y) ∨ i = .ldVxDt 15 ∨ i = .ldRegs 15

/-- `load(image)` on a machine with none: at most 3584 bytes go to 0x200 and up, the rest of memory stands, and the
image counts as loaded; a longer image changes nothing; a load on a loaded machine is refused (R222; decision D21). That
"loaded" decides, so that a load after a longer image's is no second load, is the model's choice (log 21). -/
def Obligations.LoadCopiesTheImage : Prop :=
  (∀ (s : State) (image : List Byte), s.loaded = false → image.length ≤ 3584 →
    ∃ t, s.loadImage image = .next t ∧ t.loaded = true ∧
      (∀ (j : Nat) (h : j < image.length), t.memRead (0x200 + j) = image[j]) ∧
      MemSameOutside 0x200 image.length s t ∧ Frame [] [.memory, .loadedBit] s t) ∧
  (∀ (s : State) (image : List Byte), s.loaded = false → 3584 < image.length → s.loadImage image = .next s) ∧
  (∀ (s : State) (image : List Byte), s.loaded = true → s.loadImage image = .refused .loadAfterLoad)

/-- NONINTERFERENCE: "No instruction reads it" (R18): in two states that differ in `ST` alone, an instruction has the
same outcome up to `ST`. -/
def Obligations.NoInstructionReadsTheSoundTimer : Prop :=
  ∀ (i : Instr) (s : State) (b : Byte), ∃ t u, exec i s = .next t ∧ exec i (s.setSt b) = .next u ∧
    u.setSt 0 = t.setSt 0
end

