-- ==== Sys2Proof/Laws/State.lean ====
section
/-!
SUPPORT. Each update of the state, field by field: what it writes and what it leaves. The accessors `getV`, `memRead`
and `engineState` follow under each update that does not touch what they read.
-/

namespace Sys2Proof.Machine

variable (s : State)

/-! ### `State.setV` -/

@[simp] theorem State.setV_v (x : Reg) (b : Byte) : (s.setV x b).v = s.v.set x.val b x.isLt := rfl
@[simp] theorem State.setV_i (x : Reg) (b : Byte) : (s.setV x b).i = s.i := rfl
@[simp] theorem State.setV_pc (x : Reg) (b : Byte) : (s.setV x b).pc = s.pc := rfl
@[simp] theorem State.setV_stack (x : Reg) (b : Byte) : (s.setV x b).stack = s.stack := rfl
@[simp] theorem State.setV_dt (x : Reg) (b : Byte) : (s.setV x b).dt = s.dt := rfl
@[simp] theorem State.setV_st (x : Reg) (b : Byte) : (s.setV x b).st = s.st := rfl
@[simp] theorem State.setV_waitReg (x : Reg) (b : Byte) : (s.setV x b).waitReg = s.waitReg := rfl
@[simp] theorem State.setV_fault (x : Reg) (b : Byte) : (s.setV x b).fault = s.fault := rfl
@[simp] theorem State.setV_faultWord (x : Reg) (b : Byte) : (s.setV x b).faultWord = s.faultWord := rfl
@[simp] theorem State.setV_faultAddr (x : Reg) (b : Byte) : (s.setV x b).faultAddr = s.faultAddr := rfl
@[simp] theorem State.setV_loaded (x : Reg) (b : Byte) : (s.setV x b).loaded = s.loaded := rfl
@[simp] theorem State.setV_disp (x : Reg) (b : Byte) : (s.setV x b).disp = s.disp := rfl
@[simp] theorem State.setV_mem (x : Reg) (b : Byte) : (s.setV x b).mem = s.mem := rfl
@[simp] theorem State.setV_soundOut (x : Reg) (b : Byte) : (s.setV x b).soundOut = s.soundOut := rfl
@[simp] theorem State.setV_frame (x : Reg) (b : Byte) : (s.setV x b).frame = s.frame := rfl
@[simp] theorem State.setV_keys (x : Reg) (b : Byte) : (s.setV x b).keys = s.keys := rfl
@[simp] theorem State.setV_env (x : Reg) (b : Byte) : (s.setV x b).env = s.env := rfl
@[simp] theorem State.setV_batch (x : Reg) (b : Byte) : (s.setV x b).batch = s.batch := rfl
@[simp] theorem State.setV_draws (x : Reg) (b : Byte) : (s.setV x b).draws = s.draws := rfl
@[simp] theorem State.setV_params (x : Reg) (b : Byte) : (s.setV x b).params = s.params := rfl
@[simp] theorem State.setV_memRead (x : Reg) (b : Byte) (m : Nat) : (s.setV x b).memRead m = s.memRead m := rfl
@[simp] theorem State.setV_engineState (x : Reg) (b : Byte) : (s.setV x b).engineState = s.engineState := rfl

/-! ### `State.setI` -/

@[simp] theorem State.setI_v (a : Word) : (s.setI a).v = s.v := rfl
@[simp] theorem State.setI_i (a : Word) : (s.setI a).i = a := rfl
@[simp] theorem State.setI_pc (a : Word) : (s.setI a).pc = s.pc := rfl
@[simp] theorem State.setI_stack (a : Word) : (s.setI a).stack = s.stack := rfl
@[simp] theorem State.setI_dt (a : Word) : (s.setI a).dt = s.dt := rfl
@[simp] theorem State.setI_st (a : Word) : (s.setI a).st = s.st := rfl
@[simp] theorem State.setI_waitReg (a : Word) : (s.setI a).waitReg = s.waitReg := rfl
@[simp] theorem State.setI_fault (a : Word) : (s.setI a).fault = s.fault := rfl
@[simp] theorem State.setI_faultWord (a : Word) : (s.setI a).faultWord = s.faultWord := rfl
@[simp] theorem State.setI_faultAddr (a : Word) : (s.setI a).faultAddr = s.faultAddr := rfl
@[simp] theorem State.setI_loaded (a : Word) : (s.setI a).loaded = s.loaded := rfl
@[simp] theorem State.setI_disp (a : Word) : (s.setI a).disp = s.disp := rfl
@[simp] theorem State.setI_mem (a : Word) : (s.setI a).mem = s.mem := rfl
@[simp] theorem State.setI_soundOut (a : Word) : (s.setI a).soundOut = s.soundOut := rfl
@[simp] theorem State.setI_frame (a : Word) : (s.setI a).frame = s.frame := rfl
@[simp] theorem State.setI_keys (a : Word) : (s.setI a).keys = s.keys := rfl
@[simp] theorem State.setI_env (a : Word) : (s.setI a).env = s.env := rfl
@[simp] theorem State.setI_batch (a : Word) : (s.setI a).batch = s.batch := rfl
@[simp] theorem State.setI_draws (a : Word) : (s.setI a).draws = s.draws := rfl
@[simp] theorem State.setI_params (a : Word) : (s.setI a).params = s.params := rfl
@[simp] theorem State.setI_getV (a : Word) (q : Reg) : (s.setI a).getV q = s.getV q := rfl
@[simp] theorem State.setI_memRead (a : Word) (m : Nat) : (s.setI a).memRead m = s.memRead m := rfl
@[simp] theorem State.setI_engineState (a : Word) : (s.setI a).engineState = s.engineState := rfl

/-! ### `State.setPc` -/

@[simp] theorem State.setPc_v (a : Word) : (s.setPc a).v = s.v := rfl
@[simp] theorem State.setPc_i (a : Word) : (s.setPc a).i = s.i := rfl
@[simp] theorem State.setPc_pc (a : Word) : (s.setPc a).pc = a := rfl
@[simp] theorem State.setPc_stack (a : Word) : (s.setPc a).stack = s.stack := rfl
@[simp] theorem State.setPc_dt (a : Word) : (s.setPc a).dt = s.dt := rfl
@[simp] theorem State.setPc_st (a : Word) : (s.setPc a).st = s.st := rfl
@[simp] theorem State.setPc_waitReg (a : Word) : (s.setPc a).waitReg = s.waitReg := rfl
@[simp] theorem State.setPc_fault (a : Word) : (s.setPc a).fault = s.fault := rfl
@[simp] theorem State.setPc_faultWord (a : Word) : (s.setPc a).faultWord = s.faultWord := rfl
@[simp] theorem State.setPc_faultAddr (a : Word) : (s.setPc a).faultAddr = s.faultAddr := rfl
@[simp] theorem State.setPc_loaded (a : Word) : (s.setPc a).loaded = s.loaded := rfl
@[simp] theorem State.setPc_disp (a : Word) : (s.setPc a).disp = s.disp := rfl
@[simp] theorem State.setPc_mem (a : Word) : (s.setPc a).mem = s.mem := rfl
@[simp] theorem State.setPc_soundOut (a : Word) : (s.setPc a).soundOut = s.soundOut := rfl
@[simp] theorem State.setPc_frame (a : Word) : (s.setPc a).frame = s.frame := rfl
@[simp] theorem State.setPc_keys (a : Word) : (s.setPc a).keys = s.keys := rfl
@[simp] theorem State.setPc_env (a : Word) : (s.setPc a).env = s.env := rfl
@[simp] theorem State.setPc_batch (a : Word) : (s.setPc a).batch = s.batch := rfl
@[simp] theorem State.setPc_draws (a : Word) : (s.setPc a).draws = s.draws := rfl
@[simp] theorem State.setPc_params (a : Word) : (s.setPc a).params = s.params := rfl
@[simp] theorem State.setPc_getV (a : Word) (q : Reg) : (s.setPc a).getV q = s.getV q := rfl
@[simp] theorem State.setPc_memRead (a : Word) (m : Nat) : (s.setPc a).memRead m = s.memRead m := rfl
@[simp] theorem State.setPc_engineState (a : Word) : (s.setPc a).engineState = s.engineState := rfl

/-! ### `State.setDt` -/

@[simp] theorem State.setDt_v (b : Byte) : (s.setDt b).v = s.v := rfl
@[simp] theorem State.setDt_i (b : Byte) : (s.setDt b).i = s.i := rfl
@[simp] theorem State.setDt_pc (b : Byte) : (s.setDt b).pc = s.pc := rfl
@[simp] theorem State.setDt_stack (b : Byte) : (s.setDt b).stack = s.stack := rfl
@[simp] theorem State.setDt_dt (b : Byte) : (s.setDt b).dt = b := rfl
@[simp] theorem State.setDt_st (b : Byte) : (s.setDt b).st = s.st := rfl
@[simp] theorem State.setDt_waitReg (b : Byte) : (s.setDt b).waitReg = s.waitReg := rfl
@[simp] theorem State.setDt_fault (b : Byte) : (s.setDt b).fault = s.fault := rfl
@[simp] theorem State.setDt_faultWord (b : Byte) : (s.setDt b).faultWord = s.faultWord := rfl
@[simp] theorem State.setDt_faultAddr (b : Byte) : (s.setDt b).faultAddr = s.faultAddr := rfl
@[simp] theorem State.setDt_loaded (b : Byte) : (s.setDt b).loaded = s.loaded := rfl
@[simp] theorem State.setDt_disp (b : Byte) : (s.setDt b).disp = s.disp := rfl
@[simp] theorem State.setDt_mem (b : Byte) : (s.setDt b).mem = s.mem := rfl
@[simp] theorem State.setDt_soundOut (b : Byte) : (s.setDt b).soundOut = s.soundOut := rfl
@[simp] theorem State.setDt_frame (b : Byte) : (s.setDt b).frame = s.frame := rfl
@[simp] theorem State.setDt_keys (b : Byte) : (s.setDt b).keys = s.keys := rfl
@[simp] theorem State.setDt_env (b : Byte) : (s.setDt b).env = s.env := rfl
@[simp] theorem State.setDt_batch (b : Byte) : (s.setDt b).batch = s.batch := rfl
@[simp] theorem State.setDt_draws (b : Byte) : (s.setDt b).draws = s.draws := rfl
@[simp] theorem State.setDt_params (b : Byte) : (s.setDt b).params = s.params := rfl
@[simp] theorem State.setDt_getV (b : Byte) (q : Reg) : (s.setDt b).getV q = s.getV q := rfl
@[simp] theorem State.setDt_memRead (b : Byte) (m : Nat) : (s.setDt b).memRead m = s.memRead m := rfl
@[simp] theorem State.setDt_engineState (b : Byte) : (s.setDt b).engineState = s.engineState := rfl

/-! ### `State.setSt` -/

@[simp] theorem State.setSt_v (b : Byte) : (s.setSt b).v = s.v := rfl
@[simp] theorem State.setSt_i (b : Byte) : (s.setSt b).i = s.i := rfl
@[simp] theorem State.setSt_pc (b : Byte) : (s.setSt b).pc = s.pc := rfl
@[simp] theorem State.setSt_stack (b : Byte) : (s.setSt b).stack = s.stack := rfl
@[simp] theorem State.setSt_dt (b : Byte) : (s.setSt b).dt = s.dt := rfl
@[simp] theorem State.setSt_st (b : Byte) : (s.setSt b).st = b := rfl
@[simp] theorem State.setSt_waitReg (b : Byte) : (s.setSt b).waitReg = s.waitReg := rfl
@[simp] theorem State.setSt_fault (b : Byte) : (s.setSt b).fault = s.fault := rfl
@[simp] theorem State.setSt_faultWord (b : Byte) : (s.setSt b).faultWord = s.faultWord := rfl
@[simp] theorem State.setSt_faultAddr (b : Byte) : (s.setSt b).faultAddr = s.faultAddr := rfl
@[simp] theorem State.setSt_loaded (b : Byte) : (s.setSt b).loaded = s.loaded := rfl
@[simp] theorem State.setSt_disp (b : Byte) : (s.setSt b).disp = s.disp := rfl
@[simp] theorem State.setSt_mem (b : Byte) : (s.setSt b).mem = s.mem := rfl
@[simp] theorem State.setSt_soundOut (b : Byte) : (s.setSt b).soundOut = s.soundOut := rfl
@[simp] theorem State.setSt_frame (b : Byte) : (s.setSt b).frame = s.frame := rfl
@[simp] theorem State.setSt_keys (b : Byte) : (s.setSt b).keys = s.keys := rfl
@[simp] theorem State.setSt_env (b : Byte) : (s.setSt b).env = s.env := rfl
@[simp] theorem State.setSt_batch (b : Byte) : (s.setSt b).batch = s.batch := rfl
@[simp] theorem State.setSt_draws (b : Byte) : (s.setSt b).draws = s.draws := rfl
@[simp] theorem State.setSt_params (b : Byte) : (s.setSt b).params = s.params := rfl
@[simp] theorem State.setSt_getV (b : Byte) (q : Reg) : (s.setSt b).getV q = s.getV q := rfl
@[simp] theorem State.setSt_memRead (b : Byte) (m : Nat) : (s.setSt b).memRead m = s.memRead m := rfl
@[simp] theorem State.setSt_engineState (b : Byte) : (s.setSt b).engineState = s.engineState := rfl

/-! ### `State.setWait` -/

@[simp] theorem State.setWait_v (r : Option Reg) : (s.setWait r).v = s.v := rfl
@[simp] theorem State.setWait_i (r : Option Reg) : (s.setWait r).i = s.i := rfl
@[simp] theorem State.setWait_pc (r : Option Reg) : (s.setWait r).pc = s.pc := rfl
@[simp] theorem State.setWait_stack (r : Option Reg) : (s.setWait r).stack = s.stack := rfl
@[simp] theorem State.setWait_dt (r : Option Reg) : (s.setWait r).dt = s.dt := rfl
@[simp] theorem State.setWait_st (r : Option Reg) : (s.setWait r).st = s.st := rfl
@[simp] theorem State.setWait_waitReg (r : Option Reg) : (s.setWait r).waitReg = r := rfl
@[simp] theorem State.setWait_fault (r : Option Reg) : (s.setWait r).fault = s.fault := rfl
@[simp] theorem State.setWait_faultWord (r : Option Reg) : (s.setWait r).faultWord = s.faultWord := rfl
@[simp] theorem State.setWait_faultAddr (r : Option Reg) : (s.setWait r).faultAddr = s.faultAddr := rfl
@[simp] theorem State.setWait_loaded (r : Option Reg) : (s.setWait r).loaded = s.loaded := rfl
@[simp] theorem State.setWait_disp (r : Option Reg) : (s.setWait r).disp = s.disp := rfl
@[simp] theorem State.setWait_mem (r : Option Reg) : (s.setWait r).mem = s.mem := rfl
@[simp] theorem State.setWait_soundOut (r : Option Reg) : (s.setWait r).soundOut = s.soundOut := rfl
@[simp] theorem State.setWait_frame (r : Option Reg) : (s.setWait r).frame = s.frame := rfl
@[simp] theorem State.setWait_keys (r : Option Reg) : (s.setWait r).keys = s.keys := rfl
@[simp] theorem State.setWait_env (r : Option Reg) : (s.setWait r).env = s.env := rfl
@[simp] theorem State.setWait_batch (r : Option Reg) : (s.setWait r).batch = s.batch := rfl
@[simp] theorem State.setWait_draws (r : Option Reg) : (s.setWait r).draws = s.draws := rfl
@[simp] theorem State.setWait_params (r : Option Reg) : (s.setWait r).params = s.params := rfl
@[simp] theorem State.setWait_getV (r : Option Reg) (q : Reg) : (s.setWait r).getV q = s.getV q := rfl
@[simp] theorem State.setWait_memRead (r : Option Reg) (m : Nat) : (s.setWait r).memRead m = s.memRead m := rfl

/-! ### `State.setStack` -/

@[simp] theorem State.setStack_v (l : List Word) : (s.setStack l).v = s.v := rfl
@[simp] theorem State.setStack_i (l : List Word) : (s.setStack l).i = s.i := rfl
@[simp] theorem State.setStack_pc (l : List Word) : (s.setStack l).pc = s.pc := rfl
@[simp] theorem State.setStack_stack (l : List Word) : (s.setStack l).stack = l := rfl
@[simp] theorem State.setStack_dt (l : List Word) : (s.setStack l).dt = s.dt := rfl
@[simp] theorem State.setStack_st (l : List Word) : (s.setStack l).st = s.st := rfl
@[simp] theorem State.setStack_waitReg (l : List Word) : (s.setStack l).waitReg = s.waitReg := rfl
@[simp] theorem State.setStack_fault (l : List Word) : (s.setStack l).fault = s.fault := rfl
@[simp] theorem State.setStack_faultWord (l : List Word) : (s.setStack l).faultWord = s.faultWord := rfl
@[simp] theorem State.setStack_faultAddr (l : List Word) : (s.setStack l).faultAddr = s.faultAddr := rfl
@[simp] theorem State.setStack_loaded (l : List Word) : (s.setStack l).loaded = s.loaded := rfl
@[simp] theorem State.setStack_disp (l : List Word) : (s.setStack l).disp = s.disp := rfl
@[simp] theorem State.setStack_mem (l : List Word) : (s.setStack l).mem = s.mem := rfl
@[simp] theorem State.setStack_soundOut (l : List Word) : (s.setStack l).soundOut = s.soundOut := rfl
@[simp] theorem State.setStack_frame (l : List Word) : (s.setStack l).frame = s.frame := rfl
@[simp] theorem State.setStack_keys (l : List Word) : (s.setStack l).keys = s.keys := rfl
@[simp] theorem State.setStack_env (l : List Word) : (s.setStack l).env = s.env := rfl
@[simp] theorem State.setStack_batch (l : List Word) : (s.setStack l).batch = s.batch := rfl
@[simp] theorem State.setStack_draws (l : List Word) : (s.setStack l).draws = s.draws := rfl
@[simp] theorem State.setStack_params (l : List Word) : (s.setStack l).params = s.params := rfl
@[simp] theorem State.setStack_getV (l : List Word) (q : Reg) : (s.setStack l).getV q = s.getV q := rfl
@[simp] theorem State.setStack_memRead (l : List Word) (m : Nat) : (s.setStack l).memRead m = s.memRead m := rfl
@[simp] theorem State.setStack_engineState (l : List Word) : (s.setStack l).engineState = s.engineState := rfl

/-! ### `State.setDisp` -/

@[simp] theorem State.setDisp_v (d : Display) : (s.setDisp d).v = s.v := rfl
@[simp] theorem State.setDisp_i (d : Display) : (s.setDisp d).i = s.i := rfl
@[simp] theorem State.setDisp_pc (d : Display) : (s.setDisp d).pc = s.pc := rfl
@[simp] theorem State.setDisp_stack (d : Display) : (s.setDisp d).stack = s.stack := rfl
@[simp] theorem State.setDisp_dt (d : Display) : (s.setDisp d).dt = s.dt := rfl
@[simp] theorem State.setDisp_st (d : Display) : (s.setDisp d).st = s.st := rfl
@[simp] theorem State.setDisp_waitReg (d : Display) : (s.setDisp d).waitReg = s.waitReg := rfl
@[simp] theorem State.setDisp_fault (d : Display) : (s.setDisp d).fault = s.fault := rfl
@[simp] theorem State.setDisp_faultWord (d : Display) : (s.setDisp d).faultWord = s.faultWord := rfl
@[simp] theorem State.setDisp_faultAddr (d : Display) : (s.setDisp d).faultAddr = s.faultAddr := rfl
@[simp] theorem State.setDisp_loaded (d : Display) : (s.setDisp d).loaded = s.loaded := rfl
@[simp] theorem State.setDisp_disp (d : Display) : (s.setDisp d).disp = d := rfl
@[simp] theorem State.setDisp_mem (d : Display) : (s.setDisp d).mem = s.mem := rfl
@[simp] theorem State.setDisp_soundOut (d : Display) : (s.setDisp d).soundOut = s.soundOut := rfl
@[simp] theorem State.setDisp_frame (d : Display) : (s.setDisp d).frame = s.frame := rfl
@[simp] theorem State.setDisp_keys (d : Display) : (s.setDisp d).keys = s.keys := rfl
@[simp] theorem State.setDisp_env (d : Display) : (s.setDisp d).env = s.env := rfl
@[simp] theorem State.setDisp_batch (d : Display) : (s.setDisp d).batch = s.batch := rfl
@[simp] theorem State.setDisp_draws (d : Display) : (s.setDisp d).draws = s.draws := rfl
@[simp] theorem State.setDisp_params (d : Display) : (s.setDisp d).params = s.params := rfl
@[simp] theorem State.setDisp_getV (d : Display) (q : Reg) : (s.setDisp d).getV q = s.getV q := rfl
@[simp] theorem State.setDisp_memRead (d : Display) (m : Nat) : (s.setDisp d).memRead m = s.memRead m := rfl
@[simp] theorem State.setDisp_engineState (d : Display) : (s.setDisp d).engineState = s.engineState := rfl

/-! ### `State.advance` -/

@[simp] theorem State.advance_v : s.advance.v = s.v := rfl
@[simp] theorem State.advance_i : s.advance.i = s.i := rfl
@[simp] theorem State.advance_pc : s.advance.pc = s.pc + 2#16 := rfl
@[simp] theorem State.advance_stack : s.advance.stack = s.stack := rfl
@[simp] theorem State.advance_dt : s.advance.dt = s.dt := rfl
@[simp] theorem State.advance_st : s.advance.st = s.st := rfl
@[simp] theorem State.advance_waitReg : s.advance.waitReg = s.waitReg := rfl
@[simp] theorem State.advance_fault : s.advance.fault = s.fault := rfl
@[simp] theorem State.advance_faultWord : s.advance.faultWord = s.faultWord := rfl
@[simp] theorem State.advance_faultAddr : s.advance.faultAddr = s.faultAddr := rfl
@[simp] theorem State.advance_loaded : s.advance.loaded = s.loaded := rfl
@[simp] theorem State.advance_disp : s.advance.disp = s.disp := rfl
@[simp] theorem State.advance_mem : s.advance.mem = s.mem := rfl
@[simp] theorem State.advance_soundOut : s.advance.soundOut = s.soundOut := rfl
@[simp] theorem State.advance_frame : s.advance.frame = s.frame := rfl
@[simp] theorem State.advance_keys : s.advance.keys = s.keys := rfl
@[simp] theorem State.advance_env : s.advance.env = s.env := rfl
@[simp] theorem State.advance_batch : s.advance.batch = s.batch := rfl
@[simp] theorem State.advance_draws : s.advance.draws = s.draws := rfl
@[simp] theorem State.advance_params : s.advance.params = s.params := rfl
@[simp] theorem State.advance_getV (q : Reg) : s.advance.getV q = s.getV q := rfl
@[simp] theorem State.advance_memRead (m : Nat) : s.advance.memRead m = s.memRead m := rfl
@[simp] theorem State.advance_engineState : s.advance.engineState = s.engineState := rfl

/-! ### `State.memWrite` -/

@[simp] theorem State.memWrite_v (n : Nat) (b : Byte) : (s.memWrite n b).v = s.v := rfl
@[simp] theorem State.memWrite_i (n : Nat) (b : Byte) : (s.memWrite n b).i = s.i := rfl
@[simp] theorem State.memWrite_pc (n : Nat) (b : Byte) : (s.memWrite n b).pc = s.pc := rfl
@[simp] theorem State.memWrite_stack (n : Nat) (b : Byte) : (s.memWrite n b).stack = s.stack := rfl
@[simp] theorem State.memWrite_dt (n : Nat) (b : Byte) : (s.memWrite n b).dt = s.dt := rfl
@[simp] theorem State.memWrite_st (n : Nat) (b : Byte) : (s.memWrite n b).st = s.st := rfl
@[simp] theorem State.memWrite_waitReg (n : Nat) (b : Byte) : (s.memWrite n b).waitReg = s.waitReg := rfl
@[simp] theorem State.memWrite_fault (n : Nat) (b : Byte) : (s.memWrite n b).fault = s.fault := rfl
@[simp] theorem State.memWrite_faultWord (n : Nat) (b : Byte) : (s.memWrite n b).faultWord = s.faultWord := rfl
@[simp] theorem State.memWrite_faultAddr (n : Nat) (b : Byte) : (s.memWrite n b).faultAddr = s.faultAddr := rfl
@[simp] theorem State.memWrite_loaded (n : Nat) (b : Byte) : (s.memWrite n b).loaded = s.loaded := rfl
@[simp] theorem State.memWrite_disp (n : Nat) (b : Byte) : (s.memWrite n b).disp = s.disp := rfl
@[simp] theorem State.memWrite_mem (n : Nat) (b : Byte) : (s.memWrite n b).mem = s.mem.write s.params.font (n % memSize) b := rfl
@[simp] theorem State.memWrite_soundOut (n : Nat) (b : Byte) : (s.memWrite n b).soundOut = s.soundOut := rfl
@[simp] theorem State.memWrite_frame (n : Nat) (b : Byte) : (s.memWrite n b).frame = s.frame := rfl
@[simp] theorem State.memWrite_keys (n : Nat) (b : Byte) : (s.memWrite n b).keys = s.keys := rfl
@[simp] theorem State.memWrite_env (n : Nat) (b : Byte) : (s.memWrite n b).env = s.env := rfl
@[simp] theorem State.memWrite_batch (n : Nat) (b : Byte) : (s.memWrite n b).batch = s.batch := rfl
@[simp] theorem State.memWrite_draws (n : Nat) (b : Byte) : (s.memWrite n b).draws = s.draws := rfl
@[simp] theorem State.memWrite_params (n : Nat) (b : Byte) : (s.memWrite n b).params = s.params := rfl
@[simp] theorem State.memWrite_getV (n : Nat) (b : Byte) (q : Reg) : (s.memWrite n b).getV q = s.getV q := rfl
@[simp] theorem State.memWrite_engineState (n : Nat) (b : Byte) : (s.memWrite n b).engineState = s.engineState := rfl

/-! ### `State.push` -/

@[simp] theorem State.push_v (a : Word) : (s.push a).v = s.v := rfl
@[simp] theorem State.push_i (a : Word) : (s.push a).i = s.i := rfl
@[simp] theorem State.push_pc (a : Word) : (s.push a).pc = s.pc := rfl
@[simp] theorem State.push_stack (a : Word) : (s.push a).stack = a :: s.stack := rfl
@[simp] theorem State.push_dt (a : Word) : (s.push a).dt = s.dt := rfl
@[simp] theorem State.push_st (a : Word) : (s.push a).st = s.st := rfl
@[simp] theorem State.push_waitReg (a : Word) : (s.push a).waitReg = s.waitReg := rfl
@[simp] theorem State.push_fault (a : Word) : (s.push a).fault = s.fault := rfl
@[simp] theorem State.push_faultWord (a : Word) : (s.push a).faultWord = s.faultWord := rfl
@[simp] theorem State.push_faultAddr (a : Word) : (s.push a).faultAddr = s.faultAddr := rfl
@[simp] theorem State.push_loaded (a : Word) : (s.push a).loaded = s.loaded := rfl
@[simp] theorem State.push_disp (a : Word) : (s.push a).disp = s.disp := rfl
@[simp] theorem State.push_mem (a : Word) : (s.push a).mem = s.mem := rfl
@[simp] theorem State.push_soundOut (a : Word) : (s.push a).soundOut = s.soundOut := rfl
@[simp] theorem State.push_frame (a : Word) : (s.push a).frame = s.frame := rfl
@[simp] theorem State.push_keys (a : Word) : (s.push a).keys = s.keys := rfl
@[simp] theorem State.push_env (a : Word) : (s.push a).env = s.env := rfl
@[simp] theorem State.push_batch (a : Word) : (s.push a).batch = s.batch := rfl
@[simp] theorem State.push_draws (a : Word) : (s.push a).draws = s.draws := rfl
@[simp] theorem State.push_params (a : Word) : (s.push a).params = s.params := rfl
@[simp] theorem State.push_getV (a : Word) (q : Reg) : (s.push a).getV q = s.getV q := rfl
@[simp] theorem State.push_memRead (a : Word) (m : Nat) : (s.push a).memRead m = s.memRead m := rfl
@[simp] theorem State.push_engineState (a : Word) : (s.push a).engineState = s.engineState := rfl

/-! ### `State.raiseFault` -/

@[simp] theorem State.raiseFault_v (f : FaultStatus) (w a : Word) : (s.raiseFault f w a).v = s.v := rfl
@[simp] theorem State.raiseFault_i (f : FaultStatus) (w a : Word) : (s.raiseFault f w a).i = s.i := rfl
@[simp] theorem State.raiseFault_pc (f : FaultStatus) (w a : Word) : (s.raiseFault f w a).pc = s.pc := rfl
@[simp] theorem State.raiseFault_stack (f : FaultStatus) (w a : Word) : (s.raiseFault f w a).stack = s.stack := rfl
@[simp] theorem State.raiseFault_dt (f : FaultStatus) (w a : Word) : (s.raiseFault f w a).dt = s.dt := rfl
@[simp] theorem State.raiseFault_st (f : FaultStatus) (w a : Word) : (s.raiseFault f w a).st = s.st := rfl
@[simp] theorem State.raiseFault_waitReg (f : FaultStatus) (w a : Word) : (s.raiseFault f w a).waitReg = s.waitReg := rfl
@[simp] theorem State.raiseFault_fault (f : FaultStatus) (w a : Word) : (s.raiseFault f w a).fault = f := rfl
@[simp] theorem State.raiseFault_faultWord (f : FaultStatus) (w a : Word) : (s.raiseFault f w a).faultWord = w := rfl
@[simp] theorem State.raiseFault_faultAddr (f : FaultStatus) (w a : Word) : (s.raiseFault f w a).faultAddr = a := rfl
@[simp] theorem State.raiseFault_loaded (f : FaultStatus) (w a : Word) : (s.raiseFault f w a).loaded = s.loaded := rfl
@[simp] theorem State.raiseFault_disp (f : FaultStatus) (w a : Word) : (s.raiseFault f w a).disp = s.disp := rfl
@[simp] theorem State.raiseFault_mem (f : FaultStatus) (w a : Word) : (s.raiseFault f w a).mem = s.mem := rfl
@[simp] theorem State.raiseFault_soundOut (f : FaultStatus) (w a : Word) : (s.raiseFault f w a).soundOut = s.soundOut := rfl
@[simp] theorem State.raiseFault_frame (f : FaultStatus) (w a : Word) : (s.raiseFault f w a).frame = s.frame := rfl
@[simp] theorem State.raiseFault_keys (f : FaultStatus) (w a : Word) : (s.raiseFault f w a).keys = s.keys := rfl
@[simp] theorem State.raiseFault_env (f : FaultStatus) (w a : Word) : (s.raiseFault f w a).env = s.env := rfl
@[simp] theorem State.raiseFault_batch (f : FaultStatus) (w a : Word) : (s.raiseFault f w a).batch = s.batch := rfl
@[simp] theorem State.raiseFault_draws (f : FaultStatus) (w a : Word) : (s.raiseFault f w a).draws = s.draws := rfl
@[simp] theorem State.raiseFault_params (f : FaultStatus) (w a : Word) : (s.raiseFault f w a).params = s.params := rfl
@[simp] theorem State.raiseFault_getV (f : FaultStatus) (w a : Word) (q : Reg) : (s.raiseFault f w a).getV q = s.getV q := rfl
@[simp] theorem State.raiseFault_memRead (f : FaultStatus) (w a : Word) (m : Nat) : (s.raiseFault f w a).memRead m = s.memRead m := rfl

/-! ### `State.countDraw` -/

@[simp] theorem State.countDraw_v : s.countDraw.v = s.v := rfl
@[simp] theorem State.countDraw_i : s.countDraw.i = s.i := rfl
@[simp] theorem State.countDraw_pc : s.countDraw.pc = s.pc := rfl
@[simp] theorem State.countDraw_stack : s.countDraw.stack = s.stack := rfl
@[simp] theorem State.countDraw_dt : s.countDraw.dt = s.dt := rfl
@[simp] theorem State.countDraw_st : s.countDraw.st = s.st := rfl
@[simp] theorem State.countDraw_waitReg : s.countDraw.waitReg = s.waitReg := rfl
@[simp] theorem State.countDraw_fault : s.countDraw.fault = s.fault := rfl
@[simp] theorem State.countDraw_faultWord : s.countDraw.faultWord = s.faultWord := rfl
@[simp] theorem State.countDraw_faultAddr : s.countDraw.faultAddr = s.faultAddr := rfl
@[simp] theorem State.countDraw_loaded : s.countDraw.loaded = s.loaded := rfl
@[simp] theorem State.countDraw_disp : s.countDraw.disp = s.disp := rfl
@[simp] theorem State.countDraw_mem : s.countDraw.mem = s.mem := rfl
@[simp] theorem State.countDraw_soundOut : s.countDraw.soundOut = s.soundOut := rfl
@[simp] theorem State.countDraw_frame : s.countDraw.frame = s.frame := rfl
@[simp] theorem State.countDraw_keys : s.countDraw.keys = s.keys := rfl
@[simp] theorem State.countDraw_env : s.countDraw.env = s.env := rfl
@[simp] theorem State.countDraw_batch : s.countDraw.batch = s.batch := rfl
@[simp] theorem State.countDraw_draws : s.countDraw.draws = s.draws + 1 := rfl
@[simp] theorem State.countDraw_params : s.countDraw.params = s.params := rfl
@[simp] theorem State.countDraw_getV (q : Reg) : s.countDraw.getV q = s.getV q := rfl
@[simp] theorem State.countDraw_memRead (m : Nat) : s.countDraw.memRead m = s.memRead m := rfl
@[simp] theorem State.countDraw_engineState : s.countDraw.engineState = s.engineState := rfl

/-! ### `State.writeFlagResult` -/

@[simp] theorem State.writeFlagResult_v (x : Reg) (f b : Byte) : (s.writeFlagResult x f b).v = (s.v.set flagReg.val f flagReg.isLt).set x.val b x.isLt := rfl
@[simp] theorem State.writeFlagResult_i (x : Reg) (f b : Byte) : (s.writeFlagResult x f b).i = s.i := rfl
@[simp] theorem State.writeFlagResult_pc (x : Reg) (f b : Byte) : (s.writeFlagResult x f b).pc = s.pc := rfl
@[simp] theorem State.writeFlagResult_stack (x : Reg) (f b : Byte) : (s.writeFlagResult x f b).stack = s.stack := rfl
@[simp] theorem State.writeFlagResult_dt (x : Reg) (f b : Byte) : (s.writeFlagResult x f b).dt = s.dt := rfl
@[simp] theorem State.writeFlagResult_st (x : Reg) (f b : Byte) : (s.writeFlagResult x f b).st = s.st := rfl
@[simp] theorem State.writeFlagResult_waitReg (x : Reg) (f b : Byte) : (s.writeFlagResult x f b).waitReg = s.waitReg := rfl
@[simp] theorem State.writeFlagResult_fault (x : Reg) (f b : Byte) : (s.writeFlagResult x f b).fault = s.fault := rfl
@[simp] theorem State.writeFlagResult_faultWord (x : Reg) (f b : Byte) : (s.writeFlagResult x f b).faultWord = s.faultWord := rfl
@[simp] theorem State.writeFlagResult_faultAddr (x : Reg) (f b : Byte) : (s.writeFlagResult x f b).faultAddr = s.faultAddr := rfl
@[simp] theorem State.writeFlagResult_loaded (x : Reg) (f b : Byte) : (s.writeFlagResult x f b).loaded = s.loaded := rfl
@[simp] theorem State.writeFlagResult_disp (x : Reg) (f b : Byte) : (s.writeFlagResult x f b).disp = s.disp := rfl
@[simp] theorem State.writeFlagResult_mem (x : Reg) (f b : Byte) : (s.writeFlagResult x f b).mem = s.mem := rfl
@[simp] theorem State.writeFlagResult_soundOut (x : Reg) (f b : Byte) : (s.writeFlagResult x f b).soundOut = s.soundOut := rfl
@[simp] theorem State.writeFlagResult_frame (x : Reg) (f b : Byte) : (s.writeFlagResult x f b).frame = s.frame := rfl
@[simp] theorem State.writeFlagResult_keys (x : Reg) (f b : Byte) : (s.writeFlagResult x f b).keys = s.keys := rfl
@[simp] theorem State.writeFlagResult_env (x : Reg) (f b : Byte) : (s.writeFlagResult x f b).env = s.env := rfl
@[simp] theorem State.writeFlagResult_batch (x : Reg) (f b : Byte) : (s.writeFlagResult x f b).batch = s.batch := rfl
@[simp] theorem State.writeFlagResult_draws (x : Reg) (f b : Byte) : (s.writeFlagResult x f b).draws = s.draws := rfl
@[simp] theorem State.writeFlagResult_params (x : Reg) (f b : Byte) : (s.writeFlagResult x f b).params = s.params := rfl
@[simp] theorem State.writeFlagResult_memRead (x : Reg) (f b : Byte) (m : Nat) : (s.writeFlagResult x f b).memRead m = s.memRead m := rfl
@[simp] theorem State.writeFlagResult_engineState (x : Reg) (f b : Byte) : (s.writeFlagResult x f b).engineState = s.engineState := rfl

/-! ### `State.tickTimers` -/

@[simp] theorem State.tickTimers_v : s.tickTimers.v = s.v := rfl
@[simp] theorem State.tickTimers_i : s.tickTimers.i = s.i := rfl
@[simp] theorem State.tickTimers_pc : s.tickTimers.pc = s.pc := rfl
@[simp] theorem State.tickTimers_stack : s.tickTimers.stack = s.stack := rfl
@[simp] theorem State.tickTimers_dt : s.tickTimers.dt = decTimer s.dt := rfl
@[simp] theorem State.tickTimers_st : s.tickTimers.st = decTimer s.st := rfl
@[simp] theorem State.tickTimers_waitReg : s.tickTimers.waitReg = s.waitReg := rfl
@[simp] theorem State.tickTimers_fault : s.tickTimers.fault = s.fault := rfl
@[simp] theorem State.tickTimers_faultWord : s.tickTimers.faultWord = s.faultWord := rfl
@[simp] theorem State.tickTimers_faultAddr : s.tickTimers.faultAddr = s.faultAddr := rfl
@[simp] theorem State.tickTimers_loaded : s.tickTimers.loaded = s.loaded := rfl
@[simp] theorem State.tickTimers_disp : s.tickTimers.disp = s.disp := rfl
@[simp] theorem State.tickTimers_mem : s.tickTimers.mem = s.mem := rfl
@[simp] theorem State.tickTimers_soundOut : s.tickTimers.soundOut = s.soundOut := rfl
@[simp] theorem State.tickTimers_frame : s.tickTimers.frame = s.frame := rfl
@[simp] theorem State.tickTimers_keys : s.tickTimers.keys = s.keys := rfl
@[simp] theorem State.tickTimers_env : s.tickTimers.env = s.env := rfl
@[simp] theorem State.tickTimers_batch : s.tickTimers.batch = s.batch := rfl
@[simp] theorem State.tickTimers_draws : s.tickTimers.draws = s.draws := rfl
@[simp] theorem State.tickTimers_params : s.tickTimers.params = s.params := rfl
@[simp] theorem State.tickTimers_getV (q : Reg) : s.tickTimers.getV q = s.getV q := rfl
@[simp] theorem State.tickTimers_memRead (m : Nat) : s.tickTimers.memRead m = s.memRead m := rfl
@[simp] theorem State.tickTimers_engineState : s.tickTimers.engineState = s.engineState := rfl

/-! ### `State.outputPhase` -/

@[simp] theorem State.outputPhase_v : s.outputPhase.v = s.v := rfl
@[simp] theorem State.outputPhase_i : s.outputPhase.i = s.i := rfl
@[simp] theorem State.outputPhase_pc : s.outputPhase.pc = s.pc := rfl
@[simp] theorem State.outputPhase_stack : s.outputPhase.stack = s.stack := rfl
@[simp] theorem State.outputPhase_dt : s.outputPhase.dt = s.dt := rfl
@[simp] theorem State.outputPhase_st : s.outputPhase.st = s.st := rfl
@[simp] theorem State.outputPhase_waitReg : s.outputPhase.waitReg = s.waitReg := rfl
@[simp] theorem State.outputPhase_fault : s.outputPhase.fault = s.fault := rfl
@[simp] theorem State.outputPhase_faultWord : s.outputPhase.faultWord = s.faultWord := rfl
@[simp] theorem State.outputPhase_faultAddr : s.outputPhase.faultAddr = s.faultAddr := rfl
@[simp] theorem State.outputPhase_loaded : s.outputPhase.loaded = s.loaded := rfl
@[simp] theorem State.outputPhase_disp : s.outputPhase.disp = s.disp := rfl
@[simp] theorem State.outputPhase_mem : s.outputPhase.mem = s.mem := rfl
@[simp] theorem State.outputPhase_soundOut : s.outputPhase.soundOut = s.soundActive := rfl
@[simp] theorem State.outputPhase_frame : s.outputPhase.frame = s.disp := rfl
@[simp] theorem State.outputPhase_keys : s.outputPhase.keys = s.keys := rfl
@[simp] theorem State.outputPhase_env : s.outputPhase.env = s.env := rfl
@[simp] theorem State.outputPhase_batch : s.outputPhase.batch = s.batch := rfl
@[simp] theorem State.outputPhase_draws : s.outputPhase.draws = s.draws := rfl
@[simp] theorem State.outputPhase_params : s.outputPhase.params = s.params := rfl
@[simp] theorem State.outputPhase_getV (q : Reg) : s.outputPhase.getV q = s.getV q := rfl
@[simp] theorem State.outputPhase_memRead (m : Nat) : s.outputPhase.memRead m = s.memRead m := rfl
@[simp] theorem State.outputPhase_engineState : s.outputPhase.engineState = s.engineState := rfl

/-! ### `State.setBatch` -/

@[simp] theorem State.setBatch_v (n : Nat) : (s.setBatch n).v = s.v := rfl
@[simp] theorem State.setBatch_i (n : Nat) : (s.setBatch n).i = s.i := rfl
@[simp] theorem State.setBatch_pc (n : Nat) : (s.setBatch n).pc = s.pc := rfl
@[simp] theorem State.setBatch_stack (n : Nat) : (s.setBatch n).stack = s.stack := rfl
@[simp] theorem State.setBatch_dt (n : Nat) : (s.setBatch n).dt = s.dt := rfl
@[simp] theorem State.setBatch_st (n : Nat) : (s.setBatch n).st = s.st := rfl
@[simp] theorem State.setBatch_waitReg (n : Nat) : (s.setBatch n).waitReg = s.waitReg := rfl
@[simp] theorem State.setBatch_fault (n : Nat) : (s.setBatch n).fault = s.fault := rfl
@[simp] theorem State.setBatch_faultWord (n : Nat) : (s.setBatch n).faultWord = s.faultWord := rfl
@[simp] theorem State.setBatch_faultAddr (n : Nat) : (s.setBatch n).faultAddr = s.faultAddr := rfl
@[simp] theorem State.setBatch_loaded (n : Nat) : (s.setBatch n).loaded = s.loaded := rfl
@[simp] theorem State.setBatch_disp (n : Nat) : (s.setBatch n).disp = s.disp := rfl
@[simp] theorem State.setBatch_mem (n : Nat) : (s.setBatch n).mem = s.mem := rfl
@[simp] theorem State.setBatch_soundOut (n : Nat) : (s.setBatch n).soundOut = s.soundOut := rfl
@[simp] theorem State.setBatch_frame (n : Nat) : (s.setBatch n).frame = s.frame := rfl
@[simp] theorem State.setBatch_keys (n : Nat) : (s.setBatch n).keys = s.keys := rfl
@[simp] theorem State.setBatch_env (n : Nat) : (s.setBatch n).env = s.env := rfl
@[simp] theorem State.setBatch_batch (n : Nat) : (s.setBatch n).batch = n := rfl
@[simp] theorem State.setBatch_draws (n : Nat) : (s.setBatch n).draws = s.draws := rfl
@[simp] theorem State.setBatch_params (n : Nat) : (s.setBatch n).params = s.params := rfl
@[simp] theorem State.setBatch_getV (n : Nat) (q : Reg) : (s.setBatch n).getV q = s.getV q := rfl
@[simp] theorem State.setBatch_memRead (n : Nat) (m : Nat) : (s.setBatch n).memRead m = s.memRead m := rfl
@[simp] theorem State.setBatch_engineState (n : Nat) : (s.setBatch n).engineState = s.engineState := rfl

/-! ### `State.setKeys` -/

@[simp] theorem State.setKeys_v (k : BitVec 16) : (s.setKeys k).v = s.v := rfl
@[simp] theorem State.setKeys_i (k : BitVec 16) : (s.setKeys k).i = s.i := rfl
@[simp] theorem State.setKeys_pc (k : BitVec 16) : (s.setKeys k).pc = s.pc := rfl
@[simp] theorem State.setKeys_stack (k : BitVec 16) : (s.setKeys k).stack = s.stack := rfl
@[simp] theorem State.setKeys_dt (k : BitVec 16) : (s.setKeys k).dt = s.dt := rfl
@[simp] theorem State.setKeys_st (k : BitVec 16) : (s.setKeys k).st = s.st := rfl
@[simp] theorem State.setKeys_waitReg (k : BitVec 16) : (s.setKeys k).waitReg = s.waitReg := rfl
@[simp] theorem State.setKeys_fault (k : BitVec 16) : (s.setKeys k).fault = s.fault := rfl
@[simp] theorem State.setKeys_faultWord (k : BitVec 16) : (s.setKeys k).faultWord = s.faultWord := rfl
@[simp] theorem State.setKeys_faultAddr (k : BitVec 16) : (s.setKeys k).faultAddr = s.faultAddr := rfl
@[simp] theorem State.setKeys_loaded (k : BitVec 16) : (s.setKeys k).loaded = s.loaded := rfl
@[simp] theorem State.setKeys_disp (k : BitVec 16) : (s.setKeys k).disp = s.disp := rfl
@[simp] theorem State.setKeys_mem (k : BitVec 16) : (s.setKeys k).mem = s.mem := rfl
@[simp] theorem State.setKeys_soundOut (k : BitVec 16) : (s.setKeys k).soundOut = s.soundOut := rfl
@[simp] theorem State.setKeys_frame (k : BitVec 16) : (s.setKeys k).frame = s.frame := rfl
@[simp] theorem State.setKeys_keys (k : BitVec 16) : (s.setKeys k).keys = k := rfl
@[simp] theorem State.setKeys_env (k : BitVec 16) : (s.setKeys k).env = s.env := rfl
@[simp] theorem State.setKeys_batch (k : BitVec 16) : (s.setKeys k).batch = s.batch := rfl
@[simp] theorem State.setKeys_draws (k : BitVec 16) : (s.setKeys k).draws = s.draws := rfl
@[simp] theorem State.setKeys_params (k : BitVec 16) : (s.setKeys k).params = s.params := rfl
@[simp] theorem State.setKeys_getV (k : BitVec 16) (q : Reg) : (s.setKeys k).getV q = s.getV q := rfl
@[simp] theorem State.setKeys_memRead (k : BitVec 16) (m : Nat) : (s.setKeys k).memRead m = s.memRead m := rfl
@[simp] theorem State.setKeys_engineState (k : BitVec 16) : (s.setKeys k).engineState = s.engineState := rfl

/-! ### `State.setLoaded` -/

@[simp] theorem State.setLoaded_v (c : Bool) : (s.setLoaded c).v = s.v := rfl
@[simp] theorem State.setLoaded_i (c : Bool) : (s.setLoaded c).i = s.i := rfl
@[simp] theorem State.setLoaded_pc (c : Bool) : (s.setLoaded c).pc = s.pc := rfl
@[simp] theorem State.setLoaded_stack (c : Bool) : (s.setLoaded c).stack = s.stack := rfl
@[simp] theorem State.setLoaded_dt (c : Bool) : (s.setLoaded c).dt = s.dt := rfl
@[simp] theorem State.setLoaded_st (c : Bool) : (s.setLoaded c).st = s.st := rfl
@[simp] theorem State.setLoaded_waitReg (c : Bool) : (s.setLoaded c).waitReg = s.waitReg := rfl
@[simp] theorem State.setLoaded_fault (c : Bool) : (s.setLoaded c).fault = s.fault := rfl
@[simp] theorem State.setLoaded_faultWord (c : Bool) : (s.setLoaded c).faultWord = s.faultWord := rfl
@[simp] theorem State.setLoaded_faultAddr (c : Bool) : (s.setLoaded c).faultAddr = s.faultAddr := rfl
@[simp] theorem State.setLoaded_loaded (c : Bool) : (s.setLoaded c).loaded = c := rfl
@[simp] theorem State.setLoaded_disp (c : Bool) : (s.setLoaded c).disp = s.disp := rfl
@[simp] theorem State.setLoaded_mem (c : Bool) : (s.setLoaded c).mem = s.mem := rfl
@[simp] theorem State.setLoaded_soundOut (c : Bool) : (s.setLoaded c).soundOut = s.soundOut := rfl
@[simp] theorem State.setLoaded_frame (c : Bool) : (s.setLoaded c).frame = s.frame := rfl
@[simp] theorem State.setLoaded_keys (c : Bool) : (s.setLoaded c).keys = s.keys := rfl
@[simp] theorem State.setLoaded_env (c : Bool) : (s.setLoaded c).env = s.env := rfl
@[simp] theorem State.setLoaded_batch (c : Bool) : (s.setLoaded c).batch = s.batch := rfl
@[simp] theorem State.setLoaded_draws (c : Bool) : (s.setLoaded c).draws = s.draws := rfl
@[simp] theorem State.setLoaded_params (c : Bool) : (s.setLoaded c).params = s.params := rfl
@[simp] theorem State.setLoaded_getV (c : Bool) (q : Reg) : (s.setLoaded c).getV q = s.getV q := rfl
@[simp] theorem State.setLoaded_memRead (c : Bool) (m : Nat) : (s.setLoaded c).memRead m = s.memRead m := rfl
@[simp] theorem State.setLoaded_engineState (c : Bool) : (s.setLoaded c).engineState = s.engineState := rfl

/-! ### `State.setEnv` -/

@[simp] theorem State.setEnv_v (e : List (List Event)) : (s.setEnv e).v = s.v := rfl
@[simp] theorem State.setEnv_i (e : List (List Event)) : (s.setEnv e).i = s.i := rfl
@[simp] theorem State.setEnv_pc (e : List (List Event)) : (s.setEnv e).pc = s.pc := rfl
@[simp] theorem State.setEnv_stack (e : List (List Event)) : (s.setEnv e).stack = s.stack := rfl
@[simp] theorem State.setEnv_dt (e : List (List Event)) : (s.setEnv e).dt = s.dt := rfl
@[simp] theorem State.setEnv_st (e : List (List Event)) : (s.setEnv e).st = s.st := rfl
@[simp] theorem State.setEnv_waitReg (e : List (List Event)) : (s.setEnv e).waitReg = s.waitReg := rfl
@[simp] theorem State.setEnv_fault (e : List (List Event)) : (s.setEnv e).fault = s.fault := rfl
@[simp] theorem State.setEnv_faultWord (e : List (List Event)) : (s.setEnv e).faultWord = s.faultWord := rfl
@[simp] theorem State.setEnv_faultAddr (e : List (List Event)) : (s.setEnv e).faultAddr = s.faultAddr := rfl
@[simp] theorem State.setEnv_loaded (e : List (List Event)) : (s.setEnv e).loaded = s.loaded := rfl
@[simp] theorem State.setEnv_disp (e : List (List Event)) : (s.setEnv e).disp = s.disp := rfl
@[simp] theorem State.setEnv_mem (e : List (List Event)) : (s.setEnv e).mem = s.mem := rfl
@[simp] theorem State.setEnv_soundOut (e : List (List Event)) : (s.setEnv e).soundOut = s.soundOut := rfl
@[simp] theorem State.setEnv_frame (e : List (List Event)) : (s.setEnv e).frame = s.frame := rfl
@[simp] theorem State.setEnv_keys (e : List (List Event)) : (s.setEnv e).keys = s.keys := rfl
@[simp] theorem State.setEnv_env (e : List (List Event)) : (s.setEnv e).env = e := rfl
@[simp] theorem State.setEnv_batch (e : List (List Event)) : (s.setEnv e).batch = s.batch := rfl
@[simp] theorem State.setEnv_draws (e : List (List Event)) : (s.setEnv e).draws = s.draws := rfl
@[simp] theorem State.setEnv_params (e : List (List Event)) : (s.setEnv e).params = s.params := rfl
@[simp] theorem State.setEnv_getV (e : List (List Event)) (q : Reg) : (s.setEnv e).getV q = s.getV q := rfl
@[simp] theorem State.setEnv_memRead (e : List (List Event)) (m : Nat) : (s.setEnv e).memRead m = s.memRead m := rfl
@[simp] theorem State.setEnv_engineState (e : List (List Event)) : (s.setEnv e).engineState = s.engineState := rfl

/-! ### `State.skipIf`, which changes `pc` alone -/

@[simp] theorem State.skipIf_pc (c : Bool) : (s.skipIf c).pc = if c then s.pc + 2#16 else s.pc := by cases c <;> rfl
@[simp] theorem State.skipIf_v (c : Bool) : (s.skipIf c).v = s.v := by cases c <;> rfl
@[simp] theorem State.skipIf_i (c : Bool) : (s.skipIf c).i = s.i := by cases c <;> rfl
@[simp] theorem State.skipIf_stack (c : Bool) : (s.skipIf c).stack = s.stack := by cases c <;> rfl
@[simp] theorem State.skipIf_dt (c : Bool) : (s.skipIf c).dt = s.dt := by cases c <;> rfl
@[simp] theorem State.skipIf_st (c : Bool) : (s.skipIf c).st = s.st := by cases c <;> rfl
@[simp] theorem State.skipIf_waitReg (c : Bool) : (s.skipIf c).waitReg = s.waitReg := by cases c <;> rfl
@[simp] theorem State.skipIf_fault (c : Bool) : (s.skipIf c).fault = s.fault := by cases c <;> rfl
@[simp] theorem State.skipIf_faultWord (c : Bool) : (s.skipIf c).faultWord = s.faultWord := by cases c <;> rfl
@[simp] theorem State.skipIf_faultAddr (c : Bool) : (s.skipIf c).faultAddr = s.faultAddr := by cases c <;> rfl
@[simp] theorem State.skipIf_loaded (c : Bool) : (s.skipIf c).loaded = s.loaded := by cases c <;> rfl
@[simp] theorem State.skipIf_disp (c : Bool) : (s.skipIf c).disp = s.disp := by cases c <;> rfl
@[simp] theorem State.skipIf_mem (c : Bool) : (s.skipIf c).mem = s.mem := by cases c <;> rfl
@[simp] theorem State.skipIf_soundOut (c : Bool) : (s.skipIf c).soundOut = s.soundOut := by cases c <;> rfl
@[simp] theorem State.skipIf_frame (c : Bool) : (s.skipIf c).frame = s.frame := by cases c <;> rfl
@[simp] theorem State.skipIf_keys (c : Bool) : (s.skipIf c).keys = s.keys := by cases c <;> rfl
@[simp] theorem State.skipIf_env (c : Bool) : (s.skipIf c).env = s.env := by cases c <;> rfl
@[simp] theorem State.skipIf_batch (c : Bool) : (s.skipIf c).batch = s.batch := by cases c <;> rfl
@[simp] theorem State.skipIf_draws (c : Bool) : (s.skipIf c).draws = s.draws := by cases c <;> rfl
@[simp] theorem State.skipIf_params (c : Bool) : (s.skipIf c).params = s.params := by cases c <;> rfl
@[simp] theorem State.skipIf_getV (c : Bool) (q : Reg) : (s.skipIf c).getV q = s.getV q := by cases c <;> rfl
@[simp] theorem State.skipIf_memRead (c : Bool) (m : Nat) : (s.skipIf c).memRead m = s.memRead m := by cases c <;> rfl

end Sys2Proof.Machine
end

