-- ==== Sys2Proof/Laws/Display.lean ====
section
/-!
SUPPORT. The Display Buffer's cells: what toggling, clearing and setting a pixel does to each (44_draw.md R130 to R134).
-/

namespace Sys2Proof.Machine

/-- Toggling changes the one cell and no other. -/
theorem Display.cell_toggle (d : Display) {k : Nat} (hk : k < cells) (j : Nat) :
    (d.toggle k).cell j = if j = k then !d.cell j else d.cell j := by
  have h : k / cols < rows := by simp only [cells, cols, rows] at *; omega
  simp only [Display.toggle, Display.cell, h, dite_true]
  by_cases hj : j / cols < rows
  · simp only [hj, dite_true]
    have hm : j % cols < 64 := Nat.mod_lt _ (by decide)
    by_cases hr : k / cols = j / cols
    · simp only [← hr, Vector.getElem_set_self, BitVec.getLsbD_xor, BitVec.getLsbD_twoPow]
      by_cases hjk : j = k
      · subst hjk; simp [hm]
      · have : k % cols ≠ j % cols := by simp only [cols] at *; omega
        simp [hjk, this]
    · rw [Vector.getElem_set_ne _ _ hr, if_neg]
      rintro rfl; exact hr rfl
  · have : j ≠ k := by rintro rfl; exact hj h
    simp [hj, this]

/-- A cleared display has no lit cell (R134). -/
@[simp] theorem Display.cell_clear (k : Nat) : Display.clear.cell k = false := by
  simp only [Display.cell, Display.clear]; split <;> simp

/-- No cell has an index of 2048 or more. -/
theorem Display.cell_outside (d : Display) {k : Nat} (hk : cells ≤ k) : d.cell k = false := by
  simp only [Display.cell]; rw [dif_neg]; simp only [cells, cols, rows] at *; omega

/-- Two displays with the same cells are one. -/
theorem Display.ext_cell {d e : Display} (h : ∀ k < cells, d.cell k = e.cell k) : d = e := by
  apply Vector.ext
  intro r hr
  apply BitVec.eq_of_getLsbD_eq
  intro c hc
  have hk := h (r * cols + c) (by simp only [cells, cols]; omega)
  have h₁ : (r * cols + c) / cols = r := by simp only [cols]; omega
  have h₂ : (r * cols + c) % cols = c := by simp only [cols]; omega
  simpa [Display.cell, h₁, h₂, hr] using hk

/-- `SetPixel` inside the buffer (R132). -/
theorem setPixel_inside (d : Display) {cx cy : Int} (h : 0 ≤ pixelIndex cx cy ∧ pixelIndex cx cy < 2048) :
    setPixel d cx cy = (d.toggle (pixelIndex cx cy).toNat, d.cell (pixelIndex cx cy).toNat) := by
  have hk : (pixelIndex cx cy).toNat < cells := by simp only [cells]; omega
  simp only [setPixel, h, and_self, if_true]
  rw [Display.cell_toggle d hk]; simp

/-- `SetPixel` outside the buffer (R133). -/
theorem setPixel_outside (d : Display) {cx cy : Int} (h : ¬ (0 ≤ pixelIndex cx cy ∧ pixelIndex cx cy < 2048)) :
    setPixel d cx cy = (d, false) := by
  simp only [setPixel, h, if_false]

/-! ### A sprite as one list of pixel positions -/

/-- The positions one sprite row sets, left to right (44_draw.md R136). -/
def rowHits (s : Byte) (vx cy : Nat) : List (Int × Int) :=
  ((List.range 8).filter fun c => spriteBit s c).map fun c => (((vx + c : Nat) : Int), (cy : Int))

/-- The positions a sprite sets, row by row. -/
def spriteHits (vx : Nat) : Nat → List Byte → List (Int × Int)
  | _, [] => []
  | cy, s :: ss => rowHits s vx cy ++ spriteHits vx (cy + 1) ss

/-- `SetPixel` at each position in turn, the collision only ever set. -/
def setPixels (ps : List (Int × Int)) (acc : Display × Bool) : Display × Bool :=
  ps.foldl (fun acc p => ((setPixel acc.1 p.1 p.2).1, acc.2 || (setPixel acc.1 p.1 p.2).2)) acc

theorem drawRow_eq_setPixels (vx cy : Nat) (s : Byte) (acc : Display × Bool) :
    drawRow vx cy s acc = setPixels (rowHits s vx cy) acc := by
  unfold drawRow rowHits setPixels
  generalize List.range 8 = l
  induction l generalizing acc with
  | nil => rfl
  | cons c l ih => rw [List.foldl_cons, ih]; by_cases h : spriteBit s c <;> simp [drawColumn, h]

/-- Drawing a sprite is setting its positions in turn. -/
theorem drawRows_eq_setPixels (vx cy : Nat) (ss : List Byte) (acc : Display × Bool) :
    drawRows vx cy ss acc = setPixels (spriteHits vx cy ss) acc := by
  induction ss generalizing cy acc with
  | nil => rfl
  | cons s ss ih => rw [drawRows, drawRow_eq_setPixels, ih]; simp [spriteHits, setPixels, List.foldl_append]

/-- Which positions a sprite sets. -/
theorem mem_spriteHits (vx cy : Nat) (ss : List Byte) (z : Int × Int) :
    z ∈ spriteHits vx cy ss ↔ ∃ row, ∃ h : row < ss.length, ∃ col < 8, spriteBit ss[row] col = true ∧
      z = (((vx + col : Nat) : Int), ((cy + row : Nat) : Int)) := by
  induction ss generalizing cy with
  | nil => simp [spriteHits]
  | cons s ss ih =>
    simp only [spriteHits, List.mem_append, ih, rowHits, List.mem_map, List.mem_filter, List.mem_range]
    constructor
    · rintro (⟨c, ⟨h1, h2⟩, rfl⟩ | ⟨row, h, col, h1, h2, rfl⟩)
      · exact ⟨0, by simp, c, h1, by simpa using h2, rfl⟩
      · exact ⟨row + 1, by simpa using h, col, h1, by simpa using h2, by congr 2; omega⟩
    · rintro ⟨row, h, col, h1, h2, rfl⟩
      cases row with
      | zero => exact .inl ⟨col, ⟨h1, by simpa using h2⟩, rfl⟩
      | succ row => exact .inr ⟨row, by simpa using h, col, h1, by simpa using h2, by congr 2; omega⟩

end Sys2Proof.Machine
end

