-- ==== Sys2Proof/Laws/Encoding.lean ====
section
/-!
SUPPORT. The fields of each format (30_encoding.md R61, R62): what a format puts into the word is what the field reads,
and a word is the format of its own fields. Words and fields are compared as numbers.
-/

namespace Sys2Proof

/-- Two fields side by side, as a number. -/
theorem toNat_append_mul {m n : Nat} (a : BitVec m) (b : BitVec n) : (a ++ b).toNat = a.toNat * 2 ^ n + b.toNat := by
  rw [BitVec.toNat_append, ← Nat.shiftLeft_add_eq_or_of_lt b.isLt, Nat.shiftLeft_eq]

section formats
variable (op : Nibble) (nnn : Addr12) (x y : Reg) (kk : Byte) (n : Nibble)

theorem toNat_formatA : (formatA op nnn).toNat = op.toNat * 4096 + nnn.toNat :=
  toNat_append_mul op nnn

theorem toNat_formatRI : (formatRI op x kk).toNat = op.toNat * 4096 + x.val * 256 + kk.toNat := by
  have h₁ : (formatRI op x kk).toNat = _ := toNat_append_mul (op ++ (BitVec.ofFin x : Nibble)) kk
  rw [h₁, toNat_append_mul]; simp only [BitVec.toNat_ofFin]; omega

theorem toNat_formatRR :
    (formatRR op x y n).toNat = op.toNat * 4096 + x.val * 256 + y.val * 16 + n.toNat := by
  have h₁ : (formatRR op x y n).toNat = _ :=
    toNat_append_mul (op ++ (BitVec.ofFin x : Nibble) ++ (BitVec.ofFin y : Nibble)) n
  rw [h₁, toNat_append_mul, toNat_append_mul]; simp only [BitVec.toNat_ofFin]; omega

end formats

section fields
variable (w : Word)

theorem toNat_opField : (opField w).toNat = w.toNat / 4096 := by
  have := w.isLt
  simp only [opField, BitVec.extractLsb'_toNat, Nat.shiftRight_eq_div_pow]; omega

theorem val_xField : (xField w).val = w.toNat / 256 % 16 := by
  simp only [xField, BitVec.val_toFin, BitVec.extractLsb'_toNat, Nat.shiftRight_eq_div_pow]

theorem val_yField : (yField w).val = w.toNat / 16 % 16 := by
  simp only [yField, BitVec.val_toFin, BitVec.extractLsb'_toNat, Nat.shiftRight_eq_div_pow]

theorem toNat_nField : (nField w).toNat = w.toNat % 16 := by
  simp only [nField, BitVec.extractLsb'_toNat, Nat.shiftRight_eq_div_pow]; norm_num

theorem toNat_kkField : (kkField w).toNat = w.toNat % 256 := by
  simp only [kkField, BitVec.extractLsb'_toNat, Nat.shiftRight_eq_div_pow]; norm_num

theorem toNat_nnnField : (nnnField w).toNat = w.toNat % 4096 := by
  simp only [nnnField, BitVec.extractLsb'_toNat, Nat.shiftRight_eq_div_pow]; norm_num

end fields

section roundtrips
variable (op : Nibble) (nnn : Addr12) (x y : Reg) (kk : Byte) (n : Nibble) (w : Word)

@[simp] theorem opField_formatA : opField (formatA op nnn) = op := by
  apply BitVec.eq_of_toNat_eq; rw [toNat_opField, toNat_formatA]; have := nnn.isLt; omega

@[simp] theorem nnnField_formatA : nnnField (formatA op nnn) = nnn := by
  apply BitVec.eq_of_toNat_eq; rw [toNat_nnnField, toNat_formatA]; have := nnn.isLt; omega

@[simp] theorem opField_formatRI : opField (formatRI op x kk) = op := by
  apply BitVec.eq_of_toNat_eq; rw [toNat_opField, toNat_formatRI]; have := kk.isLt; omega

@[simp] theorem xField_formatRI : xField (formatRI op x kk) = x := by
  apply Fin.ext; rw [val_xField, toNat_formatRI]; have := kk.isLt; omega

@[simp] theorem kkField_formatRI : kkField (formatRI op x kk) = kk := by
  apply BitVec.eq_of_toNat_eq; rw [toNat_kkField, toNat_formatRI]; have := kk.isLt; omega

@[simp] theorem opField_formatRR : opField (formatRR op x y n) = op := by
  apply BitVec.eq_of_toNat_eq; rw [toNat_opField, toNat_formatRR]; have := n.isLt; omega

@[simp] theorem xField_formatRR : xField (formatRR op x y n) = x := by
  apply Fin.ext; rw [val_xField, toNat_formatRR]; have := n.isLt; omega

@[simp] theorem yField_formatRR : yField (formatRR op x y n) = y := by
  apply Fin.ext; rw [val_yField, toNat_formatRR]; have := n.isLt; omega

@[simp] theorem nField_formatRR : nField (formatRR op x y n) = n := by
  apply BitVec.eq_of_toNat_eq; rw [toNat_nField, toNat_formatRR]; have := n.isLt; omega

/-- A word is the format A of its fields. -/
theorem formatA_fields : formatA (opField w) (nnnField w) = w := by
  apply BitVec.eq_of_toNat_eq; rw [toNat_formatA, toNat_opField, toNat_nnnField]; omega

/-- A word is the format RI of its fields. -/
theorem formatRI_fields : formatRI (opField w) (xField w) (kkField w) = w := by
  apply BitVec.eq_of_toNat_eq; rw [toNat_formatRI, toNat_opField, val_xField, toNat_kkField]; omega

/-- A word is the format RR of its fields. -/
theorem formatRR_fields : formatRR (opField w) (xField w) (yField w) (nField w) = w := by
  apply BitVec.eq_of_toNat_eq
  rw [toNat_formatRR, toNat_opField, val_xField, val_yField, toNat_nField]; omega

end roundtrips

/-- The fetched word as a number: the lower address holds the high byte (20_memory.md R42). -/
theorem toNat_wordOfBytes (hi lo : Byte) : (wordOfBytes hi lo).toNat = hi.toNat * 256 + lo.toNat :=
  toNat_append_mul hi lo

end Sys2Proof
end

