-- ==== Sys2Proof/Laws/Registers.lean ====
section
/-!
SUPPORT. The register file: a read after a write (10_state.md R10), the order of the flag and the result (42_alu.md
R101), and the block load (46_timer_bcd_block.md R167).
-/

namespace Sys2Proof.Machine

/-- A register reads what was last written to it, and every other register is unchanged. -/
theorem State.getV_setV (s : State) (x q : Reg) (b : Byte) :
    (s.setV x b).getV q = if q = x then b else s.getV q := by
  by_cases h : q = x
  · subst h; simp [State.getV, State.setV]
  · have h' : x.val ≠ q.val := fun e => h (Fin.ext e.symm)
    simp only [State.getV, State.setV, h, if_false]
    exact Vector.getElem_set_ne x.isLt q.isLt h'

@[simp] theorem State.getV_setV_self (s : State) (x : Reg) (b : Byte) : (s.setV x b).getV x = b := by
  simp [State.getV_setV]

/-- Two register files with the same sixteen readings are one. -/
theorem State.v_ext {s t : State} (h : ∀ q, t.getV q = s.getV q) : t.v = s.v := by
  apply Vector.ext
  intro i hi
  exact h ⟨i, hi⟩

/-- With a destination other than `VF`, the flag is in `VF`; with `VF` as destination, the result is (R101). -/
theorem State.getV_writeFlagResult (s : State) (x q : Reg) (f b : Byte) :
    (s.writeFlagResult x f b).getV q = if q = x then b else if q = flagReg then f else s.getV q := by
  simp [State.writeFlagResult, State.getV_setV]

/-- The block load writes the given registers from memory and no other. -/
theorem State.loadRegs_getV (base : Nat) (rs : List Reg) (s : State) (q : Reg) :
    (s.loadRegs base rs).getV q = if q ∈ rs then s.memRead (base + q.val) else s.getV q := by
  induction rs generalizing s with
  | nil => simp [State.loadRegs]
  | cons r rs ih =>
    rw [State.loadRegs, ih]
    by_cases h : q ∈ rs
    · simp [h]
    · by_cases hr : q = r
      · subst hr; simp [h]
      · simp [h, hr, State.getV_setV]

/-- The block load changes nothing but registers. -/
theorem State.loadRegs_eq (base : Nat) (rs : List Reg) (s : State) :
    s.loadRegs base rs = { s with v := (s.loadRegs base rs).v } := by
  induction rs generalizing s with
  | nil => rfl
  | cons r rs ih => rw [State.loadRegs, ih]; rfl

section
variable (s : State) (base : Nat) (rs : List Reg)

@[simp] theorem State.loadRegs_i : (s.loadRegs base rs).i = s.i := by rw [State.loadRegs_eq]
@[simp] theorem State.loadRegs_pc : (s.loadRegs base rs).pc = s.pc := by rw [State.loadRegs_eq]
@[simp] theorem State.loadRegs_stack : (s.loadRegs base rs).stack = s.stack := by rw [State.loadRegs_eq]
@[simp] theorem State.loadRegs_dt : (s.loadRegs base rs).dt = s.dt := by rw [State.loadRegs_eq]
@[simp] theorem State.loadRegs_st : (s.loadRegs base rs).st = s.st := by rw [State.loadRegs_eq]
@[simp] theorem State.loadRegs_waitReg : (s.loadRegs base rs).waitReg = s.waitReg := by rw [State.loadRegs_eq]
@[simp] theorem State.loadRegs_fault : (s.loadRegs base rs).fault = s.fault := by rw [State.loadRegs_eq]
@[simp] theorem State.loadRegs_faultWord : (s.loadRegs base rs).faultWord = s.faultWord := by rw [State.loadRegs_eq]
@[simp] theorem State.loadRegs_faultAddr : (s.loadRegs base rs).faultAddr = s.faultAddr := by rw [State.loadRegs_eq]
@[simp] theorem State.loadRegs_loaded : (s.loadRegs base rs).loaded = s.loaded := by rw [State.loadRegs_eq]
@[simp] theorem State.loadRegs_disp : (s.loadRegs base rs).disp = s.disp := by rw [State.loadRegs_eq]
@[simp] theorem State.loadRegs_mem : (s.loadRegs base rs).mem = s.mem := by rw [State.loadRegs_eq]
@[simp] theorem State.loadRegs_soundOut : (s.loadRegs base rs).soundOut = s.soundOut := by rw [State.loadRegs_eq]
@[simp] theorem State.loadRegs_frame : (s.loadRegs base rs).frame = s.frame := by rw [State.loadRegs_eq]
@[simp] theorem State.loadRegs_keys : (s.loadRegs base rs).keys = s.keys := by rw [State.loadRegs_eq]
@[simp] theorem State.loadRegs_env : (s.loadRegs base rs).env = s.env := by rw [State.loadRegs_eq]
@[simp] theorem State.loadRegs_batch : (s.loadRegs base rs).batch = s.batch := by rw [State.loadRegs_eq]
@[simp] theorem State.loadRegs_draws : (s.loadRegs base rs).draws = s.draws := by rw [State.loadRegs_eq]
@[simp] theorem State.loadRegs_params : (s.loadRegs base rs).params = s.params := by rw [State.loadRegs_eq]
@[simp] theorem State.loadRegs_memRead (m : Nat) : (s.loadRegs base rs).memRead m = s.memRead m := by
  simp [State.memRead]

end

@[simp] theorem mem_regsUpTo (x q : Reg) : q ∈ regsUpTo x ↔ q ≤ x := by simp [regsUpTo]

/-- The block store's bytes are `V[0]` to `V[x]`: there are `x + 1` of them (R166). -/
@[simp] theorem State.length_regsTo (s : State) (x : Reg) : (s.regsTo x).length = x.val + 1 := by
  have := x.isLt
  simp only [State.regsTo, List.length_take, Vector.length_toList]; omega

theorem State.getElem_regsTo (s : State) (x : Reg) (r : Nat) (h : r < (s.regsTo x).length) (hr : r < 16) :
    (s.regsTo x)[r] = s.getV ⟨r, hr⟩ := by
  simp [State.regsTo, State.getV]

end Sys2Proof.Machine
end

