-- ==== Sys2Proof/Laws/Engine.lean ====
section
/-!
SUPPORT. What one `step()` call can do (60_exceptions.md R186), what the events of a gap can do (R193), and the shape of
a chain of outcomes and of frames.
-/

namespace Sys2Proof.Machine

/-- A chain ends in a next state only through a next state. -/
theorem andThen_eq_next {o : StepOutcome} {f : State → StepOutcome} {t : State} (h : andThen o f = .next t) :
    ∃ u, o = .next u ∧ f u = .next t := by
  cases o with
  | next u => exact ⟨u, rfl, h⟩
  | fault r => cases h
  | refused r => cases h

/-- RUNNING is "no fault recorded and no key wait pending" (10_state.md R21). -/
theorem State.engineState_running_iff (s : State) : s.engineState = .running ↔ s.Running := by
  unfold State.engineState State.Running
  by_cases hf : s.fault = .none <;> by_cases hw : s.waitReg = none <;> simp [hf, hw]

/-- A call does nothing (PAUSED, HALTED), executes the decoded instruction, or raises `DecodeFailure`. -/
theorem engineStep_cases {s t : State} (h : engineStep s = .next t) :
    (¬ s.Running ∧ t = s) ∨
    (s.Running ∧ ∃ i, decode (s.fetch16 s.pc) = .ok i ∧ exec i s.advance = .next t) ∨
    (s.Running ∧ ∃ e, decode (s.fetch16 s.pc) = .error e ∧
      t = s.advance.raiseFault .decodeFailure (s.fetch16 s.pc) s.pc) := by
  have hr := s.engineState_running_iff
  unfold engineStep at h
  split at h
  · rename_i he; cases h; left; exact ⟨fun c => (by rw [hr.2 c] at he; cases he), rfl⟩
  · rename_i he; cases h; left; exact ⟨fun c => (by rw [hr.2 c] at he; cases he), rfl⟩
  · rename_i he; right
    dsimp only at h
    split at h
    · rename_i i hi; exact .inl ⟨hr.1 he, i, hi, h⟩
    · rename_i e hi; cases h; exact .inr ⟨hr.1 he, e, hi, rfl⟩

/-- `pop` answers the newest entry and the rest, or nothing on an empty stack (10_state.md R16). -/
theorem State.pop_eq (s : State) :
    s.pop = s.stack.head?.map fun a => (a, s.setStack s.stack.tail) := by
  unfold State.pop; split <;> rename_i h <;> simp [h]

/-- The stack is full when a finite `STACK_DEPTH` is reached (60_exceptions.md R183). -/
theorem State.stackFull_iff (s : State) : s.stackFull = true ↔ s.params.stackDepth = some s.stack.length := by
  unfold State.stackFull
  cases s.params.stackDepth with
  | none => exact ⟨fun h => (by cases h), fun h => (by cases h)⟩
  | some d => exact ⟨fun h => by rw [eq_of_beq h], fun h => by cases h; exact beq_self_eq_true _⟩

/-- A key press ends the wait of an engine that is PAUSED, and changes nothing otherwise (60_exceptions.md R191). -/
theorem State.keyPress_cases (s : State) (k : Key) :
    (∃ x, s.fault = .none ∧ s.waitReg = some x ∧ s.keyPress k = (s.setV x (BitVec.ofNat 8 k.val)).setWait none) ∨
    ((s.fault ≠ .none ∨ s.waitReg = none) ∧ s.keyPress k = s) := by
  unfold State.keyPress
  split
  · rename_i hf
    split
    · rename_i x hx; exact .inl ⟨x, hf, hx, rfl⟩
    · rename_i hx; exact .inr ⟨.inr hx, rfl⟩
  · rename_i hf; exact .inr ⟨.inl hf, rfl⟩

/-- An event that answers a state is a key press, new key levels, a first load, or a reset. -/
theorem State.applyEvent_cases {s t : State} {e : Event} (h : s.applyEvent e = .next t) :
    (∃ k, t = s.keyPress k) ∨ (∃ levels, t = s.setKeys levels) ∨
    (s.loaded = false ∧ ∃ image : List Byte,
      image.length ≤ progMax ∧ t = (s.memWriteList progBase image).setLoaded true) ∨
    (s.loaded = false ∧ t = s) ∨ t = s.resetMachine := by
  cases e with
  | keyPress k => cases h; exact .inl ⟨k, rfl⟩
  | setKeys levels => cases h; exact .inr (.inl ⟨levels, rfl⟩)
  | reset => cases h; exact .inr (.inr (.inr (.inr rfl)))
  | load image =>
    simp only [State.applyEvent, State.loadImage] at h
    split at h
    · cases h
    · rename_i hl
      have hl : s.loaded = false := by simpa using hl
      split at h <;> cases h
      · exact .inr (.inr (.inl ⟨hl, image, ‹_›, rfl⟩))
      · exact .inr (.inr (.inr (.inl ⟨hl, rfl⟩)))

/-- What every event keeps, the events of a gap keep. -/
theorem State.applyEvents_keeps {P : State → Prop} (hP : ∀ s e t, P s → s.applyEvent e = .next t → P t)
    (es : List Event) {s t : State} (hs : P s) (h : State.applyEvents es s = .next t) : P t := by
  induction es generalizing s with
  | nil => cases h; exact hs
  | cons e es ih =>
    obtain ⟨u, hu, h⟩ := andThen_eq_next h
    exact ih (hP s e u hs hu) h

/-- The gap between two ticks keeps what taking the events off the list and each event keep. -/
theorem State.betweenTicks_keeps {P : State → Prop} (hE : ∀ s env, P s → P (s.setEnv env))
    (hP : ∀ s e t, P s → s.applyEvent e = .next t → P t) {s t : State} (hs : P s) (h : s.betweenTicks = .next t) :
    P t := by
  unfold State.betweenTicks at h
  split at h
  · cases h; exact hs
  · exact State.applyEvents_keeps hP _ (hE s _ hs) h

/-- Nothing changed is within every frame. -/
theorem Frame.refl (regs : List Reg) (parts : List Part) (s : State) : Frame regs parts s s :=
  ⟨fun _ _ => rfl, fun p _ => by cases p <;> simp [Part.Same]⟩

/-- Frames compose. -/
theorem Frame.trans {regs : List Reg} {parts : List Part} {s t u : State} (h : Frame regs parts s t)
    (h' : Frame regs parts t u) : Frame regs parts s u :=
  ⟨fun q hq => (h'.1 q hq).trans (h.1 q hq), fun p hp => by
    have a := h.2 p hp
    have b := h'.2 p hp
    cases p <;> simp_all [Part.Same]⟩

/-- Writing one register is within that register's frame. -/
theorem Frame.of_setV (s : State) (x : Reg) (b : Byte) : Frame [x] [] s (s.setV x b) := by
  refine ⟨fun q hq => ?_, fun p _ => by cases p <;> simp [Part.Same]⟩
  rw [State.getV_setV, if_neg (by simpa using hq)]

/-- Writing a flag and a result is within the frame of `VF` and the destination (42_alu.md R101). -/
theorem Frame.of_writeFlagResult (s : State) (x : Reg) (f b : Byte) :
    Frame [x, 15] [] s (s.writeFlagResult x f b) := by
  refine ⟨fun q hq => ?_, fun p _ => by cases p <;> simp [Part.Same]⟩
  simp only [List.mem_cons, List.not_mem_nil, or_false, not_or] at hq
  rw [State.getV_writeFlagResult, if_neg hq.1, if_neg hq.2]

/-- A skip is within the frame of `pc` (41_skip.md R94). -/
theorem Frame.of_skipIf (s : State) (c : Bool) : Frame [] [.programCounter] s (s.skipIf c) :=
  ⟨fun q _ => by simp, fun p hp => by cases p <;> simp_all [Part.Same]⟩

end Sys2Proof.Machine
end

