-- ==== Sys2Proof/Laws/Memory.lean ====
section
/-!
SUPPORT. Memory: a read after a write (20_memory.md R40, R41), and that every operation keeps the canonical form.
-/

namespace Sys2Proof.Machine

theorem Memory.read_insert (font : List Byte) (m : Memory) (a c : Nat) (u : Byte) :
    Memory.read font (Memory.insert a u m) c = if c = a then u else Memory.read font m c := by
  induction m with
  | nil => simp [Memory.insert, Memory.read]
  | cons p m ih =>
    obtain ⟨b, w⟩ := p
    simp only [Memory.insert]
    split
    · simp [Memory.read]
    · split
      · subst a; by_cases h : c = b <;> simp [Memory.read, h]
      · rename_i h₁ h₂
        simp only [Memory.read, ih]
        by_cases h : c = b
        · subst h; simp [Ne.symm h₂]
        · simp [h]

theorem Memory.read_erase (font : List Byte) (m : Memory) (a c : Nat) :
    Memory.read font (Memory.erase a m) c = if c = a then resetByte font a else Memory.read font m c := by
  induction m with
  | nil => by_cases h : c = a <;> simp [Memory.erase, Memory.read, h]
  | cons p m ih =>
    obtain ⟨b, w⟩ := p
    simp only [Memory.erase]
    split
    · subst b; rw [ih]; by_cases h : c = a <;> simp [Memory.read, h]
    · rename_i h
      simp only [Memory.read, ih]
      by_cases h' : c = b
      · subst h'; simp [Ne.symm h]
      · simp [h']

/-- A write is seen at its address and nowhere else, whatever the list. -/
theorem Memory.read_write (font : List Byte) (m : Memory) (a c : Nat) (u : Byte) :
    Memory.read font (Memory.write font m a u) c = if c = a then u else Memory.read font m c := by
  simp only [Memory.write]
  split
  · rename_i h; rw [Memory.read_erase, h]
  · rw [Memory.read_insert]

theorem Memory.mem_insert {m : Memory} {a : Nat} {u : Byte} {c : Host.Cell} (h : c ∈ Memory.insert a u m) :
    c = (a, u) ∨ c ∈ m := by
  induction m with
  | nil => simpa [Memory.insert] using h
  | cons p m ih =>
    obtain ⟨b, w⟩ := p
    simp only [Memory.insert] at h
    split at h
    · simpa using h
    · split at h
      · rcases List.mem_cons.1 h with h | h <;> simp [h]
      · rcases List.mem_cons.1 h with h | h
        · simp [h]
        · rcases ih h with h | h <;> simp [h]

theorem Memory.mem_erase {m : Memory} {a : Nat} {c : Host.Cell} (h : c ∈ Memory.erase a m) : c ∈ m := by
  induction m with
  | nil => simp [Memory.erase] at h
  | cons p m ih =>
    obtain ⟨b, w⟩ := p
    simp only [Memory.erase] at h
    split at h
    · exact List.mem_cons_of_mem _ (ih h)
    · rcases List.mem_cons.1 h with h | h
      · simp [h]
      · exact List.mem_cons_of_mem _ (ih h)

/-- A write to an address of the machine keeps the canonical form. -/
theorem Memory.wf_write {font : List Byte} {m : Memory} {a : Nat} {u : Byte} (hm : Memory.wf font m)
    (ha : a < memSize) : Memory.wf font (Memory.write font m a u) := by
  simp only [Memory.write]
  split
  · refine ⟨?_, fun c hc => hm.2 c (Memory.mem_erase hc)⟩
    have hs := hm.1
    clear hm
    induction m with
    | nil => simp [Memory.erase]
    | cons p m ih =>
      obtain ⟨b, w⟩ := p
      rw [List.pairwise_cons] at hs
      simp only [Memory.erase]
      split
      · exact ih hs.2
      · exact List.pairwise_cons.2 ⟨fun c hc => hs.1 c (Memory.mem_erase hc), ih hs.2⟩
  · rename_i hu
    constructor
    · have hs := hm.1
      clear hm
      induction m with
      | nil => simp [Memory.insert]
      | cons p m ih =>
        obtain ⟨b, w⟩ := p
        rw [List.pairwise_cons] at hs
        simp only [Memory.insert]
        split
        · rename_i hab
          refine List.pairwise_cons.2 ⟨fun c hc => ?_, List.pairwise_cons.2 hs⟩
          rcases List.mem_cons.1 hc with h | h
          · rw [h]; exact hab
          · exact Nat.lt_trans hab (hs.1 c h)
        · split
          · rename_i hab; subst hab
            exact List.pairwise_cons.2 ⟨hs.1, hs.2⟩
          · rename_i h₁ h₂
            refine List.pairwise_cons.2 ⟨fun c hc => ?_, ih hs.2⟩
            rcases Memory.mem_insert hc with h | h
            · rw [h]; exact Nat.lt_of_le_of_ne (Nat.le_of_not_lt h₁) (Ne.symm h₂)
            · exact hs.1 c h
    · intro c hc
      rcases Memory.mem_insert hc with h | h
      · subst h; exact ⟨ha, hu⟩
      · exact hm.2 c h

/-- The port's read after its write: the addressed byte and no other (20_memory.md R41). -/
theorem State.memRead_memWrite (s : State) (a c : Nat) (b : Byte) :
    (s.memWrite a b).memRead c = if c % memSize = a % memSize then b else s.memRead c := by
  simp [State.memRead, State.memWrite, Memory.read_write]

/-- A write keeps the canonical form. -/
theorem State.wf_memWrite {s : State} (h : Memory.wf s.params.font s.mem) (a : Nat) (b : Byte) :
    Memory.wf s.params.font (s.memWrite a b).mem :=
  Memory.wf_write h (Nat.mod_lt _ (by decide))

/-- Writing a list changes nothing but memory. -/
theorem State.memWriteList_eq (s : State) (a : Nat) (bs : List Byte) :
    s.memWriteList a bs = { s with mem := (s.memWriteList a bs).mem } := by
  induction bs generalizing s a with
  | nil => rfl
  | cons b bs ih => rw [State.memWriteList, ih]; rfl

section
variable (s : State) (a : Nat) (bs : List Byte)

@[simp] theorem State.memWriteList_v : (s.memWriteList a bs).v = s.v := by rw [State.memWriteList_eq]
@[simp] theorem State.memWriteList_i : (s.memWriteList a bs).i = s.i := by rw [State.memWriteList_eq]
@[simp] theorem State.memWriteList_pc : (s.memWriteList a bs).pc = s.pc := by rw [State.memWriteList_eq]
@[simp] theorem State.memWriteList_stack : (s.memWriteList a bs).stack = s.stack := by rw [State.memWriteList_eq]
@[simp] theorem State.memWriteList_dt : (s.memWriteList a bs).dt = s.dt := by rw [State.memWriteList_eq]
@[simp] theorem State.memWriteList_st : (s.memWriteList a bs).st = s.st := by rw [State.memWriteList_eq]
@[simp] theorem State.memWriteList_waitReg : (s.memWriteList a bs).waitReg = s.waitReg := by rw [State.memWriteList_eq]
@[simp] theorem State.memWriteList_fault : (s.memWriteList a bs).fault = s.fault := by rw [State.memWriteList_eq]
@[simp] theorem State.memWriteList_faultWord : (s.memWriteList a bs).faultWord = s.faultWord := by rw [State.memWriteList_eq]
@[simp] theorem State.memWriteList_faultAddr : (s.memWriteList a bs).faultAddr = s.faultAddr := by rw [State.memWriteList_eq]
@[simp] theorem State.memWriteList_loaded : (s.memWriteList a bs).loaded = s.loaded := by rw [State.memWriteList_eq]
@[simp] theorem State.memWriteList_disp : (s.memWriteList a bs).disp = s.disp := by rw [State.memWriteList_eq]
@[simp] theorem State.memWriteList_soundOut : (s.memWriteList a bs).soundOut = s.soundOut := by rw [State.memWriteList_eq]
@[simp] theorem State.memWriteList_frame : (s.memWriteList a bs).frame = s.frame := by rw [State.memWriteList_eq]
@[simp] theorem State.memWriteList_keys : (s.memWriteList a bs).keys = s.keys := by rw [State.memWriteList_eq]
@[simp] theorem State.memWriteList_env : (s.memWriteList a bs).env = s.env := by rw [State.memWriteList_eq]
@[simp] theorem State.memWriteList_batch : (s.memWriteList a bs).batch = s.batch := by rw [State.memWriteList_eq]
@[simp] theorem State.memWriteList_draws : (s.memWriteList a bs).draws = s.draws := by rw [State.memWriteList_eq]
@[simp] theorem State.memWriteList_params : (s.memWriteList a bs).params = s.params := by rw [State.memWriteList_eq]
@[simp] theorem State.memWriteList_getV (q : Reg) : (s.memWriteList a bs).getV q = s.getV q := by
  simp [State.getV]

end

/-- Writing a list keeps the canonical form. -/
theorem State.wf_memWriteList {s : State} (h : Memory.wf s.params.font s.mem) (a : Nat) (bs : List Byte) :
    Memory.wf s.params.font (s.memWriteList a bs).mem := by
  induction bs generalizing s a with
  | nil => exact h
  | cons b bs ih => exact ih (s := s.memWrite a b) (State.wf_memWrite h a b) (a + 1)

/-- Outside the written addresses memory reads as before. -/
theorem State.memRead_memWriteList_outside (s : State) (a c : Nat) (bs : List Byte)
    (h : ∀ k < bs.length, c % memSize ≠ (a + k) % memSize) : (s.memWriteList a bs).memRead c = s.memRead c := by
  induction bs generalizing s a with
  | nil => rfl
  | cons b bs ih =>
    rw [State.memWriteList, ih, State.memRead_memWrite, if_neg]
    · simpa using h 0 (by simp)
    · intro k hk
      have := h (k + 1) (by simpa using hk)
      rwa [show a + 1 + k = a + (k + 1) by omega]

/-- Each written byte is read back, when no more bytes are written than memory holds. -/
theorem State.memRead_memWriteList (s : State) (a k : Nat) (bs : List Byte) (hk : k < bs.length)
    (hl : bs.length ≤ memSize) : (s.memWriteList a bs).memRead (a + k) = bs[k] := by
  induction bs generalizing s a k with
  | nil => simp at hk
  | cons b bs ih =>
    simp only [List.length_cons] at hk hl
    rw [State.memWriteList]
    cases k with
    | zero =>
      rw [State.memRead_memWriteList_outside _ _ _ _ (fun j hj => by simp only [memSize] at *; omega)]
      simp [State.memRead_memWrite]
    | succ k =>
      have := ih (s.memWrite a b) (a + 1) k (by omega) (by omega)
      rw [show a + (k + 1) = a + 1 + k by omega, this]
      simp

/-- The memory of the machine right after reset is canonical. -/
theorem State.reset_mem_wf : Memory.wf State.reset.params.font State.reset.mem :=
  ⟨List.Pairwise.nil, fun c hc => absurd hc (by simp [State.reset, State.init])⟩

end Sys2Proof.Machine
end

