-- ==== Sys2Proof/Laws/PerInstr.lean ====
section
/-!
SUPPORT. Per instruction: the top nibble of an instruction's word is that of its row of 30_encoding.md R65 ("the top
nibble selects a family", R64), whatever its operands.
-/

namespace Sys2Proof.Laws

/-- The row of the map with an instruction's number has the top nibble of the instruction's word. -/
def FamilyNibble.Statement (i : Instr) : Prop :=
  ∃ r ∈ opcodeMap, r.1 = rowOf i ∧ opField (encode i) = opField r.2.2

/-- From a row of the map and the word's top nibble. -/
theorem FamilyNibble.of_row {i : Instr} (r : Nat × Word × Word) (hr : r ∈ opcodeMap) (hi : r.1 = rowOf i)
    (ho : opField (encode i) = opField r.2.2) : FamilyNibble.Statement i := ⟨r, hr, hi, ho⟩

theorem FamilyNibble.cls : FamilyNibble.Statement (.cls) :=
  FamilyNibble.of_row (1, 0xFFFF, 0x00E0) (by decide) rfl (by decide)

theorem FamilyNibble.ret : FamilyNibble.Statement (.ret) :=
  FamilyNibble.of_row (2, 0xFFFF, 0x00EE) (by decide) rfl (by decide)

theorem FamilyNibble.sys (nnn : Addr12) : FamilyNibble.Statement (.sys nnn) :=
  FamilyNibble.of_row (3, 0xF000, 0x0000) (by decide) rfl
    (by rw [encode, opField_formatA]; decide)

theorem FamilyNibble.jp (nnn : Addr12) : FamilyNibble.Statement (.jp nnn) :=
  FamilyNibble.of_row (4, 0xF000, 0x1000) (by decide) rfl
    (by rw [encode, opField_formatA]; decide)

theorem FamilyNibble.call (nnn : Addr12) : FamilyNibble.Statement (.call nnn) :=
  FamilyNibble.of_row (5, 0xF000, 0x2000) (by decide) rfl
    (by rw [encode, opField_formatA]; decide)

theorem FamilyNibble.jpV0 (nnn : Addr12) : FamilyNibble.Statement (.jpV0 nnn) :=
  FamilyNibble.of_row (6, 0xF000, 0xB000) (by decide) rfl
    (by rw [encode, opField_formatA]; decide)

theorem FamilyNibble.seImm (x : Reg) (kk : Byte) : FamilyNibble.Statement (.seImm x kk) :=
  FamilyNibble.of_row (7, 0xF000, 0x3000) (by decide) rfl
    (by rw [encode, opField_formatRI]; decide)

theorem FamilyNibble.sneImm (x : Reg) (kk : Byte) : FamilyNibble.Statement (.sneImm x kk) :=
  FamilyNibble.of_row (8, 0xF000, 0x4000) (by decide) rfl
    (by rw [encode, opField_formatRI]; decide)

theorem FamilyNibble.seReg (x y : Reg) : FamilyNibble.Statement (.seReg x y) :=
  FamilyNibble.of_row (9, 0xF00F, 0x5000) (by decide) rfl
    (by rw [encode, opField_formatRR]; decide)

theorem FamilyNibble.sneReg (x y : Reg) : FamilyNibble.Statement (.sneReg x y) :=
  FamilyNibble.of_row (10, 0xF00F, 0x9000) (by decide) rfl
    (by rw [encode, opField_formatRR]; decide)

theorem FamilyNibble.ldImm (x : Reg) (kk : Byte) : FamilyNibble.Statement (.ldImm x kk) :=
  FamilyNibble.of_row (11, 0xF000, 0x6000) (by decide) rfl
    (by rw [encode, opField_formatRI]; decide)

theorem FamilyNibble.addImm (x : Reg) (kk : Byte) : FamilyNibble.Statement (.addImm x kk) :=
  FamilyNibble.of_row (12, 0xF000, 0x7000) (by decide) rfl
    (by rw [encode, opField_formatRI]; decide)

theorem FamilyNibble.ldReg (x y : Reg) : FamilyNibble.Statement (.ldReg x y) :=
  FamilyNibble.of_row (13, 0xF00F, 0x8000) (by decide) rfl
    (by rw [encode, opField_formatRR]; decide)

theorem FamilyNibble.or (x y : Reg) : FamilyNibble.Statement (.or x y) :=
  FamilyNibble.of_row (14, 0xF00F, 0x8001) (by decide) rfl
    (by rw [encode, opField_formatRR]; decide)

theorem FamilyNibble.and (x y : Reg) : FamilyNibble.Statement (.and x y) :=
  FamilyNibble.of_row (15, 0xF00F, 0x8002) (by decide) rfl
    (by rw [encode, opField_formatRR]; decide)

theorem FamilyNibble.xor (x y : Reg) : FamilyNibble.Statement (.xor x y) :=
  FamilyNibble.of_row (16, 0xF00F, 0x8003) (by decide) rfl
    (by rw [encode, opField_formatRR]; decide)

theorem FamilyNibble.addReg (x y : Reg) : FamilyNibble.Statement (.addReg x y) :=
  FamilyNibble.of_row (17, 0xF00F, 0x8004) (by decide) rfl
    (by rw [encode, opField_formatRR]; decide)

theorem FamilyNibble.sub (x y : Reg) : FamilyNibble.Statement (.sub x y) :=
  FamilyNibble.of_row (18, 0xF00F, 0x8005) (by decide) rfl
    (by rw [encode, opField_formatRR]; decide)

theorem FamilyNibble.shr (x y : Reg) : FamilyNibble.Statement (.shr x y) :=
  FamilyNibble.of_row (19, 0xF00F, 0x8006) (by decide) rfl
    (by rw [encode, opField_formatRR]; decide)

theorem FamilyNibble.subn (x y : Reg) : FamilyNibble.Statement (.subn x y) :=
  FamilyNibble.of_row (20, 0xF00F, 0x8007) (by decide) rfl
    (by rw [encode, opField_formatRR]; decide)

theorem FamilyNibble.shl (x y : Reg) : FamilyNibble.Statement (.shl x y) :=
  FamilyNibble.of_row (21, 0xF00F, 0x800E) (by decide) rfl
    (by rw [encode, opField_formatRR]; decide)

theorem FamilyNibble.ldI (nnn : Addr12) : FamilyNibble.Statement (.ldI nnn) :=
  FamilyNibble.of_row (22, 0xF000, 0xA000) (by decide) rfl
    (by rw [encode, opField_formatA]; decide)

theorem FamilyNibble.addI (x : Reg) : FamilyNibble.Statement (.addI x) :=
  FamilyNibble.of_row (23, 0xF0FF, 0xF01E) (by decide) rfl
    (by rw [encode, opField_formatRI]; decide)

theorem FamilyNibble.ldF (x : Reg) : FamilyNibble.Statement (.ldF x) :=
  FamilyNibble.of_row (24, 0xF0FF, 0xF029) (by decide) rfl
    (by rw [encode, opField_formatRI]; decide)

theorem FamilyNibble.rnd (x : Reg) (kk : Byte) : FamilyNibble.Statement (.rnd x kk) :=
  FamilyNibble.of_row (25, 0xF000, 0xC000) (by decide) rfl
    (by rw [encode, opField_formatRI]; decide)

theorem FamilyNibble.drw (x y : Reg) (n : Nibble) : FamilyNibble.Statement (.drw x y n) :=
  FamilyNibble.of_row (26, 0xF000, 0xD000) (by decide) rfl
    (by rw [encode, opField_formatRR]; decide)

theorem FamilyNibble.skp (x : Reg) : FamilyNibble.Statement (.skp x) :=
  FamilyNibble.of_row (27, 0xF0FF, 0xE09E) (by decide) rfl
    (by rw [encode, opField_formatRI]; decide)

theorem FamilyNibble.sknp (x : Reg) : FamilyNibble.Statement (.sknp x) :=
  FamilyNibble.of_row (28, 0xF0FF, 0xE0A1) (by decide) rfl
    (by rw [encode, opField_formatRI]; decide)

theorem FamilyNibble.ldVxDt (x : Reg) : FamilyNibble.Statement (.ldVxDt x) :=
  FamilyNibble.of_row (29, 0xF0FF, 0xF007) (by decide) rfl
    (by rw [encode, opField_formatRI]; decide)

theorem FamilyNibble.ldVxK (x : Reg) : FamilyNibble.Statement (.ldVxK x) :=
  FamilyNibble.of_row (30, 0xF0FF, 0xF00A) (by decide) rfl
    (by rw [encode, opField_formatRI]; decide)

theorem FamilyNibble.ldDtVx (x : Reg) : FamilyNibble.Statement (.ldDtVx x) :=
  FamilyNibble.of_row (31, 0xF0FF, 0xF015) (by decide) rfl
    (by rw [encode, opField_formatRI]; decide)

theorem FamilyNibble.ldStVx (x : Reg) : FamilyNibble.Statement (.ldStVx x) :=
  FamilyNibble.of_row (32, 0xF0FF, 0xF018) (by decide) rfl
    (by rw [encode, opField_formatRI]; decide)

theorem FamilyNibble.ldB (x : Reg) : FamilyNibble.Statement (.ldB x) :=
  FamilyNibble.of_row (33, 0xF0FF, 0xF033) (by decide) rfl
    (by rw [encode, opField_formatRI]; decide)

theorem FamilyNibble.stRegs (x : Reg) : FamilyNibble.Statement (.stRegs x) :=
  FamilyNibble.of_row (34, 0xF0FF, 0xF055) (by decide) rfl
    (by rw [encode, opField_formatRI]; decide)

theorem FamilyNibble.ldRegs (x : Reg) : FamilyNibble.Statement (.ldRegs x) :=
  FamilyNibble.of_row (35, 0xF0FF, 0xF065) (by decide) rfl
    (by rw [encode, opField_formatRI]; decide)

end Sys2Proof.Laws
end

