-- ==== Sys2Proof/Tests/Slice0.lean ====
section
/-!
SUPPORT. The model's own tests. Part 1: the well-formedness smoke and one word per instruction, written out from the
formats and the opcode map of 30_encoding.md (R61, R62, R65). Part 2: single steps, each expected value from the table
of 95_test_vectors.md that its comment names. Part 3: for every statement with hypotheses, a state and operands that
meet them.
-/

open Sys2Proof Sys2Proof.Machine

namespace Sys2Proof.Tests

/-! ## Helpers -/

/-- The reset state with a word where the first step fetches. -/
def start (w : Nat) : State := State.reset.withFetchWord 16 w

/-- Something of the state after one step. -/
def after {α : Type} (s : State) (f : State → α) : Option α :=
  match step s with
  | .next t => some (f t)
  | .fault _ => none
  | .refused _ => none

/-- `V[0]` and `V[1]` at given values. -/
def withXY (s : State) (p q : Byte) : State := (s.setV 0 p).setV 1 q

/-- One byte of a sprite at 0x300, `I` at it, `V[0]` and `V[1]` the position. -/
def sprite (w : Nat) (b p q : Byte) : State := withXY (((start w).memWrite 0x300 b).setI 0x300) p q

/-- The display's rows, cell `(0, cy)` the lowest bit of row `cy`, and `VF`. -/
def rowsAfter (s : State) : Option (List (BitVec 64) × Byte) :=
  after s fun t => (t.disp.toList, t.getV 15)

/-! ## Part 1: well-formedness and decoding -/

/-- R66: `SYS` is neither `CLS` nor `RET`. -/
theorem test_sys_0E0_is_ill_formed : ¬ (Instr.sys 0x0E0).WellFormed := by decide

theorem test_sys_0EE_is_ill_formed : ¬ (Instr.sys 0x0EE).WellFormed := by decide

/-- R66: the words beside them are `SYS` words. -/
theorem test_sys_near_words_are_well_formed :
    (Instr.sys 0x0E1).WellFormed ∧ (Instr.sys 0x000).WellFormed ∧ (Instr.sys 0xFFF).WellFormed := by decide

/-- R65 rows 1 to 6, each word as `op nnn`. -/
theorem test_decode_control :
    decode 0b0000_0000_1110_0000 = .ok .cls ∧ decode 0b0000_0000_1110_1110 = .ok .ret ∧
    decode 0b0000_1010_1011_1100 = .ok (.sys 0xABC) ∧ decode 0b0001_0010_0000_0100 = .ok (.jp 0x204) ∧
    decode 0b0010_0011_0000_0000 = .ok (.call 0x300) ∧ decode 0b1011_0001_0010_0011 = .ok (.jpV0 0x123) := by decide

/-- R65 rows 7 to 10. -/
theorem test_decode_skips :
    decode 0b0011_1010_0100_0010 = .ok (.seImm 10 0x42) ∧ decode 0b0100_1011_0100_0011 = .ok (.sneImm 11 0x43) ∧
    decode 0b0101_0001_0010_0000 = .ok (.seReg 1 2) ∧ decode 0b1001_0011_0100_0000 = .ok (.sneReg 3 4) := by decide

/-- R65 rows 11 to 16. -/
theorem test_decode_loads_and_logic :
    decode 0b0110_1111_0001_0010 = .ok (.ldImm 15 0x12) ∧ decode 0b0111_0001_1111_1111 = .ok (.addImm 1 0xFF) ∧
    decode 0b1000_0001_0010_0000 = .ok (.ldReg 1 2) ∧ decode 0b1000_0001_0010_0001 = .ok (.or 1 2) ∧
    decode 0b1000_0001_0010_0010 = .ok (.and 1 2) ∧ decode 0b1000_0001_0010_0011 = .ok (.xor 1 2) := by decide

/-- R65 rows 17 to 21; the shifts keep their unused `y` (R69). -/
theorem test_decode_arithmetic :
    decode 0b1000_0001_0010_0100 = .ok (.addReg 1 2) ∧ decode 0b1000_0001_0010_0101 = .ok (.sub 1 2) ∧
    decode 0b1000_0001_1010_0110 = .ok (.shr 1 10) ∧ decode 0b1000_0001_0010_0111 = .ok (.subn 1 2) ∧
    decode 0b1000_0001_1011_1110 = .ok (.shl 1 11) := by decide

/-- R65 rows 22 to 26. -/
theorem test_decode_address_random_draw :
    decode 0b1010_0011_0000_0001 = .ok (.ldI 0x301) ∧ decode 0b1111_0001_0001_1110 = .ok (.addI 1) ∧
    decode 0b1111_0010_0010_1001 = .ok (.ldF 2) ∧ decode 0b1100_0011_0000_1111 = .ok (.rnd 3 0x0F) ∧
    decode 0b1101_0001_0010_0101 = .ok (.drw 1 2 5) := by decide

/-- R65 rows 27 to 35. -/
theorem test_decode_keys_timers_blocks :
    decode 0b1110_0011_1001_1110 = .ok (.skp 3) ∧ decode 0b1110_0011_1010_0001 = .ok (.sknp 3) ∧
    decode 0b1111_0100_0000_0111 = .ok (.ldVxDt 4) ∧ decode 0b1111_0100_0000_1010 = .ok (.ldVxK 4) ∧
    decode 0b1111_0100_0001_0101 = .ok (.ldDtVx 4) ∧ decode 0b1111_0100_0001_1000 = .ok (.ldStVx 4) ∧
    decode 0b1111_0100_0011_0011 = .ok (.ldB 4) ∧ decode 0b1111_0100_0101_0101 = .ok (.stRegs 4) ∧
    decode 0b1111_0100_0110_0101 = .ok (.ldRegs 4) := by decide

/-- R67, R68 and 95_test_vectors.md 2.6, 2.7: undefined words, each refused by name. -/
theorem test_decode_undefined :
    decode 0x5121 = .error .family5Nibble ∧ decode 0x8128 = .error .family8SubOp ∧
    decode 0x812F = .error .family8SubOp ∧ decode 0x9127 = .error .family9Nibble ∧
    decode 0xE39F = .error .familyESubOp ∧ decode 0xF0FF = .error .familyFSubOp ∧
    decode 0xF108 = .error .familyFSubOp := by decide

/-- R60: the first byte is the high byte; a lone byte is no instruction. -/
theorem test_decode_bytes :
    decodeBytes [0x12, 0x34, 0x56] = .ok (.jp 0x234, [0x56]) ∧ decodeBytes [0x12] = .error .tooShort ∧
    decodeTableWord 16 0x8127 = some (.subn 1 2) ∧ decodeTableWord 16 0x8128 = none := by decide

/-! ## Part 2: single steps -/

/-- 95_test_vectors.md S5. -/
theorem test_cls : after ((start 0x00E0).setDisp ((Display.clear.toggle 0).toggle 2047))
    (fun t => (t.disp.cell 0, t.disp.cell 2047, t.pc)) = some (false, false, 0x202) := by decide

/-- 2.1: `RET` pops the newest entry. -/
theorem test_ret : after ((start 0x00EE).setStack [0x204, 0x20A]) (fun t => (t.pc, t.stack)) =
    some (0x204, [0x20A]) := by decide

/-- P7 and R182: `RET` on an empty stack. -/
theorem test_ret_empty : after (start 0x00EE) (fun t => (t.fault, t.faultWord, t.faultAddr, t.pc)) =
    some (.stackUnderflow, 0x00EE, 0x200, 0x202) := by decide

/-- 2.1: `SYS` is a decode failure. -/
theorem test_sys : after (start 0x0123) (fun t => (t.fault, t.faultWord, t.faultAddr, t.pc)) =
    some (.decodeFailure, 0x0123, 0x200, 0x202) := by decide

/-- S6. -/
theorem test_jp : after (start 0x1204) (fun t => t.pc) = some 0x204 := by decide

/-- S7. -/
theorem test_call : after (start 0x2300) (fun t => (t.pc, t.stack)) = some (0x300, [0x202]) := by decide

/-- R183: a finite stack that is full. -/
theorem test_call_full : after { start 0x2300 with params := { Config.defaultParams with stackDepth := some 0 } }
    (fun t => (t.fault, t.faultWord, t.pc, t.stack)) = some (.stackOverflow, 0x2300, 0x202, []) := by decide

/-- R85: the sum is not truncated to 12 bits. -/
theorem test_jpV0 : after ((start 0xBFFF).setV 0 0xFF) (fun t => t.pc) = some 0x10FE := by decide

/-- S12, R90. -/
theorem test_seImm : after (start 0x3000) (fun t => t.pc) = some 0x204 := by decide

/-- R91. -/
theorem test_sneImm : after (start 0x4000) (fun t => t.pc) = some 0x202 := by decide

/-- R92. -/
theorem test_seReg : after (withXY (start 0x5010) 7 7) (fun t => t.pc) = some 0x204 := by decide

/-- R93. -/
theorem test_sneReg : after (withXY (start 0x9010) 7 8) (fun t => t.pc) = some 0x204 := by decide

/-- R102: `VF` is an ordinary destination. -/
theorem test_ldImm : after (start 0x6F12) (fun t => t.getV 15) = some 0x12 := by decide

/-- R103, D13: the wrap writes no flag. -/
theorem test_addImm_wraps : after ((start 0x70FF).setV 0 2) (fun t => (t.getV 0, t.getV 15)) = some (1, 0) := by decide

/-- R104: `V[x] <- V[y]`, not the other way. -/
theorem test_ldReg : after (withXY (start 0x8010) 1 2) (fun t => (t.getV 0, t.getV 1)) = some (2, 2) := by decide

/-- R105. -/
theorem test_or : after (withXY (start 0x8011) 0x0C 0x0A) (fun t => (t.getV 0, t.getV 15)) = some (0x0E, 0) := by decide

/-- R106. -/
theorem test_and : after (withXY (start 0x8012) 0x0C 0x0A) (fun t => t.getV 0) = some 0x08 := by decide

/-- R107. -/
theorem test_xor : after (withXY (start 0x8013) 0x0C 0x0A) (fun t => t.getV 0) = some 0x06 := by decide

/-- R108: 0xFF + 0x01. -/
theorem test_addReg_carry : after (withXY (start 0x8014) 0xFF 0x01) (fun t => (t.getV 0, t.getV 15)) =
    some (0, 1) := by decide

/-- 2.3: `ADD VF, VF` with 0x90: the result wins over the carry. -/
theorem test_addReg_flag_destination : after ((start 0x8FF4).setV 15 0x90) (fun t => t.getV 15) = some 0x20 := by decide

/-- R109, S2: equal operands give flag 0. -/
theorem test_sub_equal : after ((withXY (start 0x8015) 5 5).setV 15 1) (fun t => (t.getV 0, t.getV 15)) =
    some (0, 0) := by decide

/-- R109. -/
theorem test_sub_borrow : after (withXY (start 0x8015) 3 5) (fun t => (t.getV 0, t.getV 15)) = some (0xFE, 0) := by decide

/-- R110: `V[x]` is shifted, whatever `V[y]`. -/
theorem test_shr : after (withXY (start 0x8016) 0x81 0xFF) (fun t => (t.getV 0, t.getV 15)) = some (0x40, 1) := by decide

/-- R111: the minuend is `V[y]`. -/
theorem test_subn : after (withXY (start 0x8017) 3 5) (fun t => (t.getV 0, t.getV 15)) = some (2, 1) := by decide

/-- S13: the flag is 0x80. -/
theorem test_shl : after ((start 0x810E).setV 1 0x81) (fun t => (t.getV 1, t.getV 15)) = some (0x02, 0x80) := by decide

/-- R112 with `SHL_FLAG_NORMALIZE`. -/
theorem test_shl_normalized : after { (start 0x810E).setV 1 0x81 with
    params := { Config.defaultParams with shlFlagNormalize := true } } (fun t => (t.getV 1, t.getV 15)) =
    some (0x02, 1) := by decide

/-- 2.4. -/
theorem test_ldI : after ((start 0xA300).setI 0xFFFF) (fun t => t.i) = some 0x0300 := by decide

/-- 2.4: no 12-bit mask and no flag. -/
theorem test_addI : after (((start 0xF11E).setI 0x0FFF).setV 1 0xFF) (fun t => (t.i, t.getV 15)) =
    some (0x10FE, 0) := by decide

/-- 2.4, D6. -/
theorem test_addI_wraps : after (((start 0xF11E).setI 0xFFFF).setV 1 1) (fun t => t.i) = some 0 := by decide

/-- 2.4: the whole byte times 5. -/
theorem test_ldF : after ((start 0xF029).setV 0 0xFF) (fun t => t.i) = some 0x04FB := by decide

/-- 2.4: a zero mask gives 0 for any draw. -/
theorem test_rnd_zero_mask : ∃ t, exec (.rnd 1 0x00) State.reset = .next t ∧ t.getV 1 = 0 ∧ t.draws = 1 :=
  ⟨_, rfl, BitVec.and_zero, rfl⟩

/-- S8: glyph 0 at the origin. -/
theorem test_drw_glyph : rowsAfter (start 0xD015) =
    some ([0x0F, 0x09, 0x09, 0x09, 0x0F] ++ List.replicate 27 0, 0) := by decide

/-- 2.5: at 121 the last column goes one row down by the one-shot wrap, and not to column 0. -/
theorem test_drw_wraps_once : rowsAfter (sprite 0xD011 0xFF 121 0) =
    some ([0xFE00000000000000, 0x01] ++ List.replicate 30 0, 0) := by decide

/-- 2.6. -/
theorem test_skp : after ({ (start 0xE39E).setV 3 5 with keys := 0x0020 }) (fun t => t.pc) = some 0x204 := by decide

/-- 2.6: an index above 15 is not masked. -/
theorem test_skp_high_index : after ({ (start 0xE39E).setV 3 0x15 with keys := 0x0020 }) (fun t => t.pc) =
    some 0x202 := by decide

/-- 2.6. -/
theorem test_sknp : after ({ (start 0xE3A1).setV 3 5 with keys := 0x0020 }) (fun t => t.pc) = some 0x202 := by decide

/-- 2.6. -/
theorem test_sknp_high_index : after ({ (start 0xE3A1).setV 3 0x20 with keys := 0xFFFF }) (fun t => t.pc) =
    some 0x204 := by decide

/-- 2.7. -/
theorem test_ldVxDt : after ((start 0xF207).setDt 0x0A) (fun t => (t.getV 2, t.dt)) = some (0x0A, 0x0A) := by decide

/-- 2.7. -/
theorem test_ldVxK : after (start 0xF10A) (fun t => (t.waitReg, t.pc, t.engineState)) =
    some (some 1, 0x202, .paused) := by decide

/-- 2.7: the key press that ends the wait. -/
theorem test_ldVxK_key_press : after (start 0xFF0A) (fun t => ((t.keyPress 15).getV 15, (t.keyPress 15).waitReg)) =
    some (0x0F, none) := by decide

/-- 2.7. -/
theorem test_ldDtVx : after ((start 0xF015).setV 0 0x0A) (fun t => (t.dt, t.st)) = some (0x0A, 0) := by decide

/-- 2.7: `sound_out` does not change before the tick's end. -/
theorem test_ldStVx : after ((start 0xF018).setV 0 0x0A) (fun t => (t.st, t.soundOut)) = some (0x0A, false) := by decide

/-- 2.7. -/
theorem test_ldB : after (((start 0xF233).setV 2 0xFE).setI 0x300)
    (fun t => (t.memRead 0x300, t.memRead 0x301, t.memRead 0x302, t.i)) = some (2, 5, 4, 0x300) := by decide

/-- 2.7: over the top of memory. -/
theorem test_ldB_masks : after (((start 0xF233).setV 2 0x7B).setI 0xFFE)
    (fun t => (t.memRead 0xFFE, t.memRead 0xFFF, t.memRead 0x000)) = some (1, 2, 3) := by decide

/-- 2.7: the registers to `x` and no further, `I` unchanged. -/
theorem test_stRegs : after ((withXY (((start 0xF155).setI 0x400).setV 2 0x44) 0x11 0x22))
    (fun t => (t.memRead 0x400, t.memRead 0x401, t.memRead 0x402, t.i)) = some (0x11, 0x22, 0, 0x400) := by decide

/-- 2.7: the font's first 16 bytes. -/
theorem test_ldRegs_font : after (start 0xFF65) (fun t => t.v.toList) = some ([0xF0, 0x90, 0x90, 0x90, 0xF0] ++
    [0x20, 0x60, 0x20, 0x20, 0x70] ++ [0xF0, 0x10, 0xF0, 0x80, 0xF0] ++ [0xF0]) := by decide

/-- 2.7: the registers above `x` stand. -/
theorem test_ldRegs_above : after ((start 0xF065).setV 1 0x77) (fun t => (t.getV 0, t.getV 1)) =
    some (0xF0, 0x77) := by decide

/-- 2.8: `pc = 0x0FFF` fetches its second byte from 0x000. -/
theorem test_fetch_masks : ((State.reset.memWrite 0xFFF 0x12).fetch16 0x0FFF, State.reset.fetch16 0x1000) =
    (0x12F0, 0xF090) := by decide

/-- 2.9: one decrement. -/
theorem test_tickTimers : ((((State.reset.setDt 3).setSt 1).tickTimers.dt), ((State.reset.setSt 1).tickTimers.st)) =
    (2, 0) := by decide

/-- R200: the tenth call of a tick is followed by its end. -/
theorem test_tick_end : after (((start 0x1200).setBatch 9).setSt 2) (fun t => (t.st, t.soundOut, t.batch)) =
    some (1, true, 0) := by decide

/-! ## Part 3: the statements' hypotheses are met -/

/-! ### Encoding -/

theorem witness_DecodeOfEncode : (Instr.drw 15 15 15).WellFormed ∧ (Instr.sys 0xFFF).WellFormed ∧
    (Instr.shr 0 15).WellFormed := by decide

theorem witness_EncodeOfDecode : decode 0x8FF6 = .ok (.shr 15 15) ∧ decode 0xDFFF = .ok (.drw 15 15 15) := by decide

/-- One row with itself, `CLS` and `RET` with `SYS`, and `SYS` with them. -/
theorem witness_OpcodeRowsOverlap :
    (∃ r ∈ opcodeMap, (0x00E0 : Word) &&& r.2.1 = r.2.2 ∧ r.1 = 1) ∧
    (∃ r ∈ opcodeMap, (0x00E0 : Word) &&& r.2.1 = r.2.2 ∧ r.1 = 3) ∧
    (∃ r ∈ opcodeMap, (0x00EE : Word) &&& r.2.1 = r.2.2 ∧ r.1 = 2) ∧
    (∃ r ∈ opcodeMap, (0x00EE : Word) &&& r.2.1 = r.2.2 ∧ r.1 = 3) := by decide

/-- A word under each clause of R67 and R68, and the defined words beside them. -/
theorem witness_UndefinedWords :
    (opField 0x8128 = 0x8 ∧ nField 0x8128 = 0x8) ∧ (opField 0x812F = 0x8 ∧ nField 0x812F = 0xF) ∧
    (opField 0x5121 = 0x5 ∧ nField 0x5121 ≠ 0x0) ∧ (opField 0x912F = 0x9 ∧ nField 0x912F ≠ 0x0) ∧
    (opField 0xE39F = 0xE ∧ kkField 0xE39F = 0x9F) ∧ (opField 0xF166 = 0xF ∧ kkField 0xF166 = 0x66) ∧
    decode 0x8127 = .ok (.subn 1 2) ∧ decode 0x812E = .ok (.shl 1 2) := by decide

/-! ### The fetch and the step -/

theorem witness_FetchSeesStoredBytes : (0xFFF : Word).toNat = 4095 ∧ (0xFFFF : Word).toNat + 1 = 65536 := by decide

theorem witness_PlacedInstruction : (Instr.ldRegs 15).WellFormed ∧ (Instr.cls).WellFormed := by decide

/-- A jump inside a tick and as its last call. -/
theorem witness_StepRuns :
    (start 0x1204).loaded = true ∧ (start 0x1204).Running ∧
    decode ((start 0x1204).fetch16 (start 0x1204).pc) = .ok (.jp 0x204) ∧
    (start 0x1204).batch + 1 < (start 0x1204).params.stepsPerTick ∧
    ¬ ((start 0x1204).setBatch 9).batch + 1 < (start 0x1204).params.stepsPerTick := by decide

theorem witness_UndefinedWord :
    (start 0x8128).loaded = true ∧ (start 0x8128).Running ∧
    decode ((start 0x8128).fetch16 (start 0x8128).pc) = .error .family8SubOp := by decide

/-- A PAUSED state, and the HALTED one that `SYS` leaves. -/
def pausedState : State := (start 0x1204).setWait (some 3)

def haltedState : State := (start 0x0123).advance.raiseFault .decodeFailure 0x0123 0x200

theorem witness_PausedOrHalted :
    pausedState.waitReg ≠ none ∧ pausedState.loaded = true ∧
    pausedState.batch + 1 < pausedState.params.stepsPerTick ∧ haltedState.fault ≠ .none ∧ haltedState.loaded = true ∧
    haltedState.batch + 1 < haltedState.params.stepsPerTick := by decide

theorem witness_UnloadedTick : State.reset.loaded = false ∧ State.reset.env = [] := by decide

theorem witness_TickIsItsSteps : (start 0x1204).loaded = true ∧ (start 0x1204).batch = 0 ∧
    1 ≤ (start 0x1204).params.stepsPerTick := by decide

/-! ### Memory, reset, the invariant -/

theorem witness_EqualReadings : Memory.wf Config.defaultFont [(0x000, 0x00), (0x200, 0x12), (0xFFF, 0xFF)] := by decide

/-- Both clauses at their boundary, and the last byte of memory. -/
theorem witness_ResetMemory : State.reset.params.font.length = 80 ∧ 79 < State.reset.params.font.length ∧
    ¬ 80 < State.reset.params.font.length ∧ 4095 < 4096 := by decide

theorem witness_ResetValues : (80 ≤ 80 ∧ 80 < 4096) ∧ 80 ≤ 4095 ∧ 4095 < 4096 := by decide

theorem witness_running_inv : (start 0x1204).Inv where
  params_wf := by decide
  mem_wf := by decide
  batch_lt := by decide
  depth_le := by decide +revert
  no_fault_latches := by decide
  halted_not_waiting := by decide
  halted_pc := by decide
  decode_failure := fun h => absurd h (by decide)
  underflow := by decide
  overflow := fun h => absurd h (by decide)
  unloaded := by decide

theorem witness_halted_inv : haltedState.Inv where
  params_wf := by decide
  mem_wf := by decide
  batch_lt := by decide
  depth_le := by decide +revert
  no_fault_latches := by decide
  halted_not_waiting := by decide
  halted_pc := by decide
  decode_failure := fun _ => .inr ⟨0x123, by decide⟩
  underflow := by decide
  overflow := fun h => absurd h (by decide)
  unloaded := by decide

/-- Both take a step. -/
theorem witness_StepKeepsTheInvariant :
    after (start 0x1204) (fun t => t.pc) = some 0x204 ∧ after haltedState (fun t => t.batch) = some 1 := by decide

/-! ### Control and skips -/

theorem witness_Cls : 0 < 2048 ∧ 2047 < 2048 := by decide

theorem witness_Ret : (State.reset.setStack [0x202]).stack = 0x202 :: [] ∧ State.reset.stack = [] := by decide

/-- A reset state whose return stack holds `d` entries at most. -/
def withDepth (d : Nat) : State := { State.reset with params := { Config.defaultParams with stackDepth := some d } }

/-- No bound, a bound not reached, and a bound reached. -/
theorem witness_Call : State.reset.params.stackDepth ≠ some State.reset.stack.length ∧
    (withDepth 1).params.stackDepth ≠ some (withDepth 1).stack.length ∧
    ((withDepth 1).setStack [0x202]).params.stackDepth = some ((withDepth 1).setStack [0x202]).stack.length := by decide

theorem witness_RetComesBack : State.reset.params.stackDepth ≠ some State.reset.stack.length ∧
    ∃ t, exec (.call 0x300) State.reset = .next t ∧ (t.setV 3 7).stack = t.stack := ⟨by decide, _, rfl, rfl⟩

/-- The two sides of each compare skip's condition. -/
theorem witness_CompareSkips : (withXY State.reset 7 7).getV 0 = (withXY State.reset 7 7).getV 1 ∧
    (withXY State.reset 7 8).getV 0 ≠ (withXY State.reset 7 8).getV 1 := by decide

/-- A pressed key 15, and an index of 16 with every key pressed. -/
theorem witness_KeySkips :
    ((State.reset.setV 3 15).getV 3).toNat ≤ 15 ∧ (0x8000 : BitVec 16).getLsbD 15 = true ∧
    ¬ ((State.reset.setV 3 16).getV 3).toNat ≤ 15 := by decide

/-! ### Arithmetic -/

/-- For the three statements about a destination other than `VF`; both sides of the flag. -/
theorem witness_DestinationIsNotTheFlag : (14 : Reg) ≠ 15 ∧
    (0xFF : Byte).toNat + (0x01 : Byte).toNat > 255 ∧ ¬ (0xFE : Byte).toNat + (0x01 : Byte).toNat > 255 ∧
    (6 : Byte).toNat > (5 : Byte).toNat ∧ ¬ (5 : Byte).toNat > (5 : Byte).toNat := by decide

/-! ### Display -/

/-- Each clause of the wrap at the ends of its range, with `b = 64`. -/
theorem witness_Wrap : (0 : Int) < 64 ∧ (64 : Int) ≤ 64 ∧ (-1 : Int) < 0 ∧ (0 : Int) ≤ 63 ∧ (63 : Int) < 64 ∧
    (-64 : Int) ≤ -64 ∧ (127 : Int) < 2 * 64 ∧ wrap1 127 64 = 127 % 64 ∧ wrap1 (-64) 64 = -64 % 64 ∧
    wrap1 128 64 ≠ 128 % 64 ∧ wrap1 (-65) 64 ≠ -65 % 64 := by decide

/-- An index inside the buffer at both of its ends, and one outside on each side. -/
theorem witness_SetPixel : pixelIndex 0 0 = 0 ∧ pixelIndex 63 31 = 2047 ∧ pixelIndex 0 64 = 2048 ∧
    pixelIndex (-65) 0 = -1 ∧ (0 : Int) ≤ 2047 ∧ (2047 : Int) < 2048 := by decide

/-- Each range of the pixel index at its two ends; a far column two rows down is inside the buffer, and on the last row
outside it (95_test_vectors.md S14 and section 2.5). -/
theorem witness_PixelIndex :
    pixelIndex (-1) 0 = 63 ∧ pixelIndex 0 (-1) = 31 * 64 ∧ pixelIndex (-64) (-32) = 0 ∧ pixelIndex 127 63 = 2047 ∧
    pixelIndex 128 0 = 64 ∧ pixelIndex 200 0 = 136 ∧ pixelIndex 192 29 = 31 * 64 ∧ pixelIndex 200 31 = 2120 ∧
    2048 ≤ pixelIndex (-64) 64 := by decide

theorem witness_DrawReachesNoCellTwice : 14 < 15 ∧ 7 < 8 ∧ 255 < 256 ∧
    pixelIndex ((255 + 7 : Nat) : Int) ((255 + 14 : Nat) : Int) =
      pixelIndex ((255 + 7 : Nat) : Int) ((255 + 14 : Nat) : Int) := by decide

/-- Glyph 0 at the origin covers cell 0 and not cell 4. -/
theorem witness_Draw_covers : SpriteCovers State.reset 0 1 5 0 ∧ ¬ SpriteCovers State.reset 0 1 5 4 := by
  unfold SpriteCovers; decide

/-- With cell 0 lit there is a collision; on a clear display there is none. -/
theorem witness_Draw_collision :
    (∃ k : Nat, k < 2048 ∧ SpriteCovers (State.reset.setDisp (Display.clear.toggle 0)) 0 1 5 k ∧
      (State.reset.setDisp (Display.clear.toggle 0)).disp.cell k = true) ∧
    ¬ ∃ k : Nat, k < 2048 ∧ SpriteCovers State.reset 0 1 0 k ∧ State.reset.disp.cell k = true := by
  refine ⟨⟨0, by decide, ?_, by decide⟩, ?_⟩
  · unfold SpriteCovers; decide
  · rintro ⟨k, -, ⟨row, hr, -⟩, -⟩
    exact absurd hr (by simp)

theorem witness_DrawingTwice : ∃ t, exec (.drw 0 1 5) State.reset = .next t ∧ t.getV 0 = State.reset.getV 0 ∧
    t.getV 1 = State.reset.getV 1 ∧ State.reset.disp.cell 0 = false := ⟨_, rfl, by decide, by decide, by decide⟩

/-! ### Timers, key wait, blocks -/

theorem witness_KeyWait : State.reset.fault = .none := by decide

/-- No wait pending, and a HALTED machine. -/
theorem witness_KeyPressDiscarded : State.reset.waitReg = none ∧ haltedState.fault ≠ .none := by decide

/-- The stored bytes' neighbours, over the top of memory too. -/
theorem witness_StoreOutside :
    (∀ k < 3, 0x303 % memSize ≠ (0x300 + k) % memSize) ∧ (∀ k < 16, 0x00F % memSize ≠ (0xFFF + k) % memSize) := by
  decide

theorem witness_Blocks : (15 : Reg) ≤ 15 ∧ (0 : Reg) ≤ 0 ∧ ¬ (1 : Reg) ≤ 0 := by decide

theorem witness_BlockLoadRestores : ∃ t, exec (.stRegs 15) (State.reset.setI 0xFFF) = .next t ∧
    (t.setV 3 7).i = t.i ∧ ∀ a, (t.setV 3 7).memRead a = t.memRead a := ⟨_, rfl, rfl, fun _ => rfl⟩

theorem witness_Timers : State.reset.Running ∧ pausedState.waitReg ≠ none ∧
    (∃ t, exec (.addI 3) State.reset = .next t) ∧ (∀ x, Instr.addI 3 ≠ .ldDtVx x) ∧ ∀ x, Instr.addI 3 ≠ .ldStVx x :=
  ⟨by decide, by decide, ⟨_, rfl⟩, by decide, by decide⟩

/-- A RUNNING and two other states, a call, and each event of a gap but reset. -/
theorem witness_Sound : State.reset.Running ∧ ¬ pausedState.Running ∧ ¬ haltedState.Running ∧
    (∃ t, engineStep pausedState = .next t) ∧
    ∀ e ∈ [Event.keyPress 7, .setKeys 1, .load [0x12, 0x00]], e ≠ .reset ∧
      (match State.reset.applyEvent e with | .next _ => true | _ => false) = true :=
  ⟨by decide, by decide, by decide, ⟨_, rfl⟩, by decide⟩

/-- R200, phase 4: the tenth call of a tick is followed by the sampling of the display. -/
theorem test_tick_end_frame : after ((start 0x1200).setBatch 9 |>.setDisp (Display.clear.toggle 65))
    (fun t => (t.frame.cell 65, t.disp.cell 65)) = some (true, true) := by decide

/-- R222 and log 21: a load after one whose image was too long. -/
theorem test_load_after_oversize : ∃ t u, State.reset.loadImage (List.replicate 3585 0x12) = .next t ∧
    t.loadImage [0x12, 0x00] = .next u ∧ u.loaded = true := by
  refine ⟨State.reset, _, ?_, rfl, rfl⟩
  rw [State.loadImage, if_neg (by decide), if_neg (by rw [List.length_replicate]; decide)]

theorem witness_Halted : haltedState.loaded = true ∧ haltedState.fault ≠ .none ∧
    (∀ es ∈ haltedState.env.head?, Event.reset ∉ es) ∧ ∃ t, step haltedState = .next t :=
  ⟨by decide, by decide, by decide, _, rfl⟩

theorem witness_Transitions : State.reset.engineState = .running ∧ (∃ t, exec .cls State.reset = .next t) ∧
    pausedState.engineState = .paused ∧ haltedState.engineState ≠ .running ∧ (∃ t, engineStep haltedState = .next t) :=
  ⟨by decide, ⟨_, rfl⟩, by decide, by decide, _, rfl⟩

/-! ### Who writes what: an instruction that changes each part -/

theorem witness_writes_address : ∃ t, exec (.ldI 0x300) State.reset = .next t ∧ ¬ Part.addressRegister.Same State.reset t :=
  ⟨_, rfl, by unfold Part.Same; decide⟩

theorem witness_writes_stack : ∃ t, exec (.call 0x300) State.reset = .next t ∧ ¬ Part.returnStack.Same State.reset t :=
  ⟨_, rfl, by unfold Part.Same; decide⟩

theorem witness_writes_register : ∃ t, exec (.shr 3 0) (State.reset.setV 3 5) = .next t ∧
    t.getV 3 ≠ (State.reset.setV 3 5).getV 3 ∧ t.getV 15 ≠ (State.reset.setV 3 5).getV 15 :=
  ⟨_, rfl, by decide, by decide⟩

theorem witness_writes_delay_timer : ∃ t, exec (.ldDtVx 3) (State.reset.setV 3 5) = .next t ∧
    ¬ Part.delayTimer.Same (State.reset.setV 3 5) t := ⟨_, rfl, by unfold Part.Same; decide⟩

theorem witness_writes_sound_timer : ∃ t, exec (.ldStVx 3) (State.reset.setV 3 5) = .next t ∧
    ¬ Part.soundTimer.Same (State.reset.setV 3 5) t := ⟨_, rfl, by unfold Part.Same; decide⟩

theorem witness_writes_wait : ∃ t, exec (.ldVxK 3) State.reset = .next t ∧ ¬ Part.waitRegister.Same State.reset t :=
  ⟨_, rfl, by unfold Part.Same; decide⟩

theorem witness_writes_fault : ∃ t, exec .ret State.reset = .next t ∧ ¬ Part.faultLatches.Same State.reset t :=
  ⟨_, rfl, by unfold Part.Same; decide⟩

theorem witness_writes_display : ∃ t, exec (.drw 0 1 1) State.reset = .next t ∧ ¬ Part.display.Same State.reset t :=
  ⟨_, rfl, by unfold Part.Same; decide⟩

theorem witness_writes_memory : ∃ t, exec (.ldB 0) State.reset = .next t ∧ ¬ Part.memory.Same State.reset t :=
  ⟨_, rfl, fun h => absurd (h 0) (by decide)⟩

theorem witness_writes_draws : ∃ t, exec (.rnd 0 0) State.reset = .next t ∧ ¬ Part.draws.Same State.reset t :=
  ⟨_, rfl, fun h => Nat.one_ne_zero h⟩

theorem witness_writes_pc : ∃ t, exec (.jp 0x300) State.reset = .next t ∧ ¬ Part.programCounter.Same State.reset t :=
  ⟨_, rfl, by unfold Part.Same; decide⟩

/-- A change of `VF` by a flag and by a plain destination. -/
theorem witness_FlagRegisterWriters :
    (∃ t, exec (.addReg 0 1) (withXY State.reset 0xFF 1) = .next t ∧ t.getV 15 ≠ (withXY State.reset 0xFF 1).getV 15) ∧
    (∃ t, exec (.ldImm 15 1) State.reset = .next t ∧ t.getV 15 ≠ State.reset.getV 15) ∧
    ∃ t, exec (.ldRegs 15) (State.reset.setI 1) = .next t ∧ t.getV 15 ≠ (State.reset.setI 1).getV 15 :=
  ⟨⟨_, rfl, by decide⟩, ⟨_, rfl, by decide⟩, _, rfl, by decide⟩

/-- The longest image that fits, the shortest that does not, and a machine that holds one. -/
theorem witness_LoadCopies : State.reset.loaded = false ∧ (List.replicate 3584 (0x12 : Byte)).length ≤ 3584 ∧
    3584 < (List.replicate 3585 (0x12 : Byte)).length ∧ (start 0x1204).loaded = true := by
  exact ⟨rfl, by rw [List.length_replicate], by rw [List.length_replicate]; decide, rfl⟩

end Sys2Proof.Tests
end

section
/-!
PROOFS. The control instructions `CLS`, `JP` and `JP V0` (40_control.md R80, R83, R85): immediates and bytes widened to
an address, the frame of a write to `pc` and of a write to the display, then the two statements.
-/

namespace Sys2Proof.Machine

/-! ### Widening to 16 bits (30_encoding.md R63) -/

@[simp] theorem toNat_zextAddr (nnn : Addr12) : (zextAddr nnn).toNat = nnn.toNat :=
  BitVec.toNat_setWidth_of_le (by decide)

@[simp] theorem toNat_zextByte (b : Byte) : (zextByte b).toNat = b.toNat :=
  BitVec.toNat_setWidth_of_le (by decide)

/-- A 12-bit target plus a byte is at most 0x10FE, so 16 bits hold it without wrapping (R85). -/
theorem toNat_zextAddr_add_zextByte (nnn : Addr12) (b : Byte) :
    (zextAddr nnn + zextByte b).toNat = nnn.toNat + b.toNat := by
  have fits : (zextAddr nnn).toNat + (zextByte b).toNat < 2 ^ 16 := by
    have hn := nnn.isLt
    have hb := b.isLt
    simp only [toNat_zextAddr, toNat_zextByte]; omega
  rw [BitVec.toNat_add_of_lt fits, toNat_zextAddr, toNat_zextByte]

/-! ### Frames of single updates -/

/-- Writing `pc` changes `pc` alone. -/
theorem Frame.of_setPc (s : State) (a : Word) : Frame [] [.programCounter] s (s.setPc a) :=
  ⟨fun q _ => s.setPc_getV a q, fun p hp => by cases p <;> simp_all [Part.Same]⟩

/-- Writing the display buffer changes the display alone. -/
theorem Frame.of_setDisp (s : State) (d : Display) : Frame [] [.display] s (s.setDisp d) :=
  ⟨fun q _ => s.setDisp_getV d q, fun p hp => by cases p <;> simp_all [Part.Same]⟩

/-! ### The meanings -/

theorem exec_cls (s : State) : exec .cls s = .next (s.setDisp Display.clear) := rfl

theorem exec_jp (nnn : Addr12) (s : State) : exec (.jp nnn) s = .next (s.setPc (zextAddr nnn)) := rfl

theorem exec_jpV0 (nnn : Addr12) (s : State) :
    exec (.jpV0 nnn) s = .next (s.setPc (zextAddr nnn + zextByte (s.getV 0))) := rfl

/-! ### The statements -/

/-- Settles O21: `CLS` only writes the display, with the cleared one. -/
theorem clsClearsTheDisplay : Obligations.ClsClearsTheDisplay :=
  ⟨rfl, fun s => ⟨s.setDisp Display.clear, exec_cls s, fun k _ => Display.cell_clear k, Frame.of_setDisp s _⟩⟩

/-- Settles O24: both jumps only write `pc`, and neither target wraps. -/
theorem jumpsSetThePc : Obligations.JumpsSetThePc :=
  ⟨fun nnn s => ⟨s.setPc (zextAddr nnn), exec_jp nnn s, toNat_zextAddr nnn, Frame.of_setPc s _⟩,
    fun nnn s => ⟨s.setPc (zextAddr nnn + zextByte (s.getV 0)), exec_jpV0 nnn s,
      toNat_zextAddr_add_zextByte nnn (s.getV 0), Frame.of_setPc s _⟩⟩

end Sys2Proof.Machine
end

section
/-!
PROOFS. The compare skips `SE` and `SNE` (41_skip.md R90 to R94): what a skip on a test does when the test decides a
condition, the four tests, then the statement.
-/

namespace Sys2Proof.Machine

/-- A skip on a test that decides `P` adds 2 to the advanced `pc` exactly when `P` holds, and changes nothing else
(R94). -/
theorem State.skipIf_of_iff {c : Bool} {P : Prop} [Decidable P] (s : State) (decides : c = true ↔ P) :
    (s.skipIf c).pc = (if P then s.pc + 2 else s.pc) ∧ Frame [] [.programCounter] s (s.skipIf c) :=
  ⟨(s.skipIf_pc c).trans (if_congr decides rfl rfl), Frame.of_skipIf s c⟩

/-! ### The meanings -/

theorem exec_seImm (x : Reg) (kk : Byte) (s : State) :
    exec (.seImm x kk) s = .next (s.skipIf (s.getV x == kk)) := rfl

theorem exec_sneImm (x : Reg) (kk : Byte) (s : State) :
    exec (.sneImm x kk) s = .next (s.skipIf (s.getV x != kk)) := rfl

theorem exec_seReg (x y : Reg) (s : State) :
    exec (.seReg x y) s = .next (s.skipIf (s.getV x == s.getV y)) := rfl

theorem exec_sneReg (x y : Reg) (s : State) :
    exec (.sneReg x y) s = .next (s.skipIf (s.getV x != s.getV y)) := rfl

/-! ### The statement -/

/-- Settles O27: each compare skip is a skip on a test that decides its condition, `==` for `SE` and `!=` for `SNE`. -/
theorem compareSkipsAdvanceThePc : Obligations.CompareSkipsAdvanceThePc :=
  ⟨fun x kk s => ⟨_, exec_seImm x kk s, s.skipIf_of_iff beq_iff_eq⟩,
    fun x kk s => ⟨_, exec_sneImm x kk s, s.skipIf_of_iff bne_iff_ne⟩,
    fun x y s => ⟨_, exec_seReg x y s, s.skipIf_of_iff beq_iff_eq⟩,
    fun x y s => ⟨_, exec_sneReg x y s, s.skipIf_of_iff bne_iff_ne⟩⟩

end Sys2Proof.Machine
end

section
/-!
PROOFS. The register loads `LD Vx, kk` and `LD Vx, Vy` (42_alu.md R102, R104): each is one register write.
-/

namespace Sys2Proof.Machine

/-! ### The meanings -/

theorem exec_ldImm (x : Reg) (kk : Byte) (s : State) : exec (.ldImm x kk) s = .next (s.setV x kk) := rfl

theorem exec_ldReg (x y : Reg) (s : State) : exec (.ldReg x y) s = .next (s.setV x (s.getV y)) := rfl

/-! ### The statement -/

/-- Settles O29: both loads only write `V[x]`, and the write treats `x = 15` like any other register. -/
theorem registerLoads : Obligations.RegisterLoads :=
  ⟨fun x kk s => ⟨s.setV x kk, exec_ldImm x kk s, s.getV_setV_self x kk, Frame.of_setV s x kk⟩,
    fun x y s => ⟨s.setV x (s.getV y), exec_ldReg x y s, s.getV_setV_self x _, Frame.of_setV s x _⟩⟩

end Sys2Proof.Machine
end

section
/-!
PROOFS. The address loads `LD I, nnn` and `LD F, Vx` (43_address_random.md R120, R122): the frame of a write to `I`,
five times a byte in 16 bits, then the statement.
-/

namespace Sys2Proof.Machine

/-- Writing `I` changes `I` alone. -/
theorem Frame.of_setI (s : State) (a : Word) : Frame [] [.addressRegister] s (s.setI a) :=
  ⟨fun q _ => s.setI_getV a q, fun p hp => by cases p <;> simp_all [Part.Same]⟩

/-- Five times a byte is at most 1275, so 16 bits hold the product without wrapping (R122). -/
@[simp] theorem toNat_glyphAddr (b : Byte) : (glyphAddr b).toNat = b.toNat * 5 := by
  have fits : (zextByte b).toNat * (5#16).toNat < 2 ^ 16 := by
    have hb := b.isLt
    simp only [toNat_zextByte, BitVec.toNat_ofNat]; omega
  calc (glyphAddr b).toNat
    _ = (zextByte b).toNat * (5#16).toNat := BitVec.toNat_mul_of_lt fits
    _ = b.toNat * 5 := by rw [toNat_zextByte]; rfl

/-! ### The meanings -/

theorem exec_ldI (nnn : Addr12) (s : State) : exec (.ldI nnn) s = .next (s.setI (zextAddr nnn)) := rfl

theorem exec_ldF (x : Reg) (s : State) : exec (.ldF x) s = .next (s.setI (glyphAddr (s.getV x))) := rfl

/-! ### The statement -/

/-- Settles O36: both loads only write `I`, and neither the zero-extension nor the product loses a bit. -/
theorem addressLoads : Obligations.AddressLoads :=
  ⟨fun nnn s => ⟨s.setI (zextAddr nnn), exec_ldI nnn s, toNat_zextAddr nnn, Frame.of_setI s _⟩,
    fun x s => ⟨s.setI (glyphAddr (s.getV x)), exec_ldF x s, toNat_glyphAddr (s.getV x), Frame.of_setI s _⟩⟩

end Sys2Proof.Machine
end


section
/-!
PROOFS. The one-shot wrap (44_draw.md R131): one rule per branch, then the interval on which it is the remainder.
-/

namespace Sys2Proof.Machine

/-! ### The branches -/

theorem wrap1_of_ge {c b : Int} (h : b ≤ c) : wrap1 c b = c - b := if_pos h

theorem wrap1_of_neg {c b : Int} (hb : 0 < b) (h : c < 0) : wrap1 c b = c + b := by
  rw [wrap1, if_neg (by omega), if_pos h]

theorem wrap1_of_inside {c b : Int} (h₀ : 0 ≤ c) (h : c < b) : wrap1 c b = c := by
  rw [wrap1, if_neg (by omega), if_neg (by omega)]

/-! ### The remainder -/

/-- The wrap moves `c` by a multiple of the bound. -/
theorem wrap1_emod (c b : Int) : wrap1 c b % b = c % b := by
  unfold wrap1
  split
  · exact Int.sub_emod_right c b
  · split
    · exact Int.add_emod_right c b
    · rfl

/-- One subtraction or addition of the bound lands in `[0, b)` exactly from `[-b, 2b)`. -/
theorem wrap1_mem_range_iff {c b : Int} (hb : 0 < b) : 0 ≤ wrap1 c b ∧ wrap1 c b < b ↔ -b ≤ c ∧ c < 2 * b := by
  rcases le_or_gt b c with above | below
  · rw [wrap1_of_ge above]; omega
  · rcases lt_or_ge c 0 with neg | nonneg
    · rw [wrap1_of_neg hb neg]; omega
    · rw [wrap1_of_inside nonneg below]; omega

/-- The wrap and `c` have the same remainder, so they agree with it exactly when the wrap lies in `[0, b)` (R131). -/
theorem wrap1_eq_emod_iff {c b : Int} (hb : 0 < b) : wrap1 c b = c % b ↔ -b ≤ c ∧ c < 2 * b := by
  rw [← wrap1_mem_range_iff hb]
  constructor
  · intro h
    rw [h]
    exact ⟨Int.emod_nonneg c hb.ne', Int.emod_lt_of_pos c hb⟩
  · rintro ⟨nonneg, lt⟩
    rw [← wrap1_emod c b, Int.emod_eq_of_lt nonneg lt]

/-! ### The statement -/

/-- Settles O39: a clause per branch, the interval, and the two values just past it, where one subtraction leaves the
bound itself. -/
theorem wrapIsOneShot : Obligations.WrapIsOneShot :=
  fun _ _ hb => ⟨wrap1_of_ge, wrap1_of_neg hb, wrap1_of_inside, wrap1_eq_emod_iff hb,
    wrap1_of_ge (by decide), wrap1_of_ge (by decide)⟩

end Sys2Proof.Machine
end

section
/-!
PROOFS. The key wait `LD Vx, K` (46_timer_bcd_block.md R161; 60_exceptions.md R187, R191, R200): the frame of a write to
`wait_reg`, what a PAUSED engine does on a call, at a tick's end and on a key press, then the statement.
-/

namespace Sys2Proof.Machine

/-! ### Frames -/

/-- A frame may list more than what changed. -/
theorem Frame.mono {regs regs' : List Reg} {parts parts' : List Part} {s t : State} (h : Frame regs parts s t)
    (hregs : regs ⊆ regs') (hparts : parts ⊆ parts') : Frame regs' parts' s t :=
  ⟨fun q hq => h.1 q fun mem => hq (hregs mem), fun p hp => h.2 p fun mem => hp (hparts mem)⟩

/-- Writing `wait_reg` changes `wait_reg` alone. -/
theorem Frame.of_setWait (s : State) (r : Option Reg) : Frame [] [.waitRegister] s (s.setWait r) :=
  ⟨fun q _ => s.setWait_getV r q, fun p hp => by cases p <;> simp_all [Part.Same]⟩

/-! ### The PAUSED engine -/

/-- PAUSED is a key wait pending and no fault recorded (10_state.md R21). -/
theorem State.engineState_paused_iff (s : State) : s.engineState = .paused ↔ s.fault = .none ∧ s.waitReg ≠ none := by
  unfold State.engineState
  by_cases hf : s.fault = .none <;> by_cases hw : s.waitReg = none <;> simp [hf, hw]

/-- A call on a PAUSED engine fetches nothing and leaves the state as it is (60_exceptions.md R187). -/
theorem engineStep_of_paused {s : State} (h : s.engineState = .paused) : engineStep s = .next s := by
  simp only [engineStep, h]

/-- The timers count only while the engine is RUNNING (60_exceptions.md R200). -/
theorem State.timerPhase_of_not_running {s : State} (h : ¬ s.Running) : s.timerPhase = s := if_neg h

/-- A key press on a waiting engine writes the key's index to the register waited for and ends the wait
(60_exceptions.md R191). -/
theorem State.keyPress_of_waiting {s : State} {x : Reg} (hf : s.fault = .none) (hw : s.waitReg = some x) (k : Key) :
    s.keyPress k = (s.setV x (BitVec.ofNat 8 k.val)).setWait none := by
  simp only [State.keyPress, hf, hw, if_true]

/-! ### The meaning -/

theorem exec_ldVxK (x : Reg) (s : State) : exec (.ldVxK x) s = .next (s.setWait (some x)) := rfl

/-- The key press that ends a wait just begun leaves the state before the instruction with the key's index in `V[x]`:
the two writes to `wait_reg` come to the last one. -/
theorem State.keyPress_setWait {s : State} (hf : s.fault = .none) (x : Reg) (k : Key) :
    (s.setWait (some x)).keyPress k = (s.setV x (BitVec.ofNat 8 k.val)).setWait none :=
  State.keyPress_of_waiting (s := s.setWait (some x)) hf rfl k

/-- A key's index fits a byte. -/
theorem toNat_ofNat_key (k : Key) : (BitVec.ofNat 8 k.val).toNat = k.val :=
  (BitVec.toNat_ofNat k.val 8).trans (Nat.mod_eq_of_lt (k.isLt.trans (by decide)))

/-! ### The statement -/

/-- Settles O46: the instruction only sets the wait, which pauses an engine with no fault; the key press then only writes
`V[x]` and `wait_reg`. -/
theorem keyWaitPausesUntilAKeyPress : Obligations.KeyWaitPausesUntilAKeyPress := by
  intro x s hf
  have paused : (s.setWait (some x)).engineState = .paused :=
    (State.engineState_paused_iff _).2 ⟨hf, Option.some_ne_none x⟩
  have notRunning : ¬ (s.setWait (some x)).Running := fun running => Option.some_ne_none x running.2
  refine ⟨s.setWait (some x), exec_ldVxK x s, rfl, paused, Frame.of_setWait s _, engineStep_of_paused paused,
    State.timerPhase_of_not_running notRunning, fun k => ?_⟩
  rw [State.keyPress_setWait hf x k]
  refine ⟨?_, ⟨hf, rfl⟩, ?_⟩
  · rw [State.setWait_getV, State.getV_setV_self, toNat_ofNat_key]
  · exact ((Frame.of_setV s x _).mono (List.Subset.refl _) (List.nil_subset _)).trans
      ((Frame.of_setWait _ none).mono (List.nil_subset _) (List.Subset.refl _))

end Sys2Proof.Machine
end

section
/-!
PROOFS. Memory after `reset` (70_reset_and_hazards.md R221): an unlisted address reads as its reset contents, and `reset`
lists nothing; then the reset contents of an 80-byte font.
-/

namespace Sys2Proof.Machine

/-- The memory `reset` leaves lists no byte, so every address reads as its reset contents. -/
theorem State.memRead_resetMachine (s : State) (a : Nat) :
    s.resetMachine.memRead a = resetByte s.params.font (a % memSize) := rfl

/-- A font that fills its place is the reset contents there, and the rest of the reset contents is zero. -/
theorem resetByte_of_length {font : List Byte} (full : font.length = fontLen) (a : Nat) :
    resetByte font a = if h : a < font.length then font[a] else 0 := by
  unfold resetByte
  by_cases inFont : a < font.length
  · rw [if_pos (full ▸ inFont), dif_pos inFont, List.getD_eq_getElem _ _ inFont]
  · rw [if_neg (full ▸ inFont), dif_neg inFont]

/-- Settles O17: below 4096 the port's mask keeps the address, and what stands there is the reset contents. -/
theorem resetMemoryIsTheFontAndZeros : Obligations.ResetMemoryIsTheFontAndZeros := by
  intro s a full inMemory
  rw [State.memRead_resetMachine, Nat.mod_eq_of_lt inMemory, resetByte_of_length full]

end Sys2Proof.Machine
end

section
/-!
PROOFS. The decoder and the encoder (30_encoding.md R61 to R68): a word rebuilt from a family's fields, the two round
trips, and what decodes to nothing.
-/

namespace Sys2Proof

/-! ### A word rebuilt from its fields -/

section rebuild
variable {w : Word} {op n : Nibble} {kk : Byte}

theorem formatA_of_opField (hop : (opField w).toNat = op.toNat) : formatA op (nnnField w) = w := by
  rw [← BitVec.eq_of_toNat_eq hop, formatA_fields]

theorem formatRI_of_opField (hop : (opField w).toNat = op.toNat) : formatRI op (xField w) (kkField w) = w := by
  rw [← BitVec.eq_of_toNat_eq hop, formatRI_fields]

theorem formatRI_of_opField_kkField (hop : (opField w).toNat = op.toNat) (hkk : (kkField w).toNat = kk.toNat) :
    formatRI op (xField w) kk = w := by
  rw [← BitVec.eq_of_toNat_eq hkk, formatRI_of_opField hop]

theorem formatRR_of_opField (hop : (opField w).toNat = op.toNat) :
    formatRR op (xField w) (yField w) (nField w) = w := by
  rw [← BitVec.eq_of_toNat_eq hop, formatRR_fields]

theorem formatRR_of_opField_nField (hop : (opField w).toNat = op.toNat) (hn : (nField w).toNat = n.toNat) :
    formatRR op (xField w) (yField w) n = w := by
  rw [← BitVec.eq_of_toNat_eq hn, formatRR_of_opField hop]

end rebuild

/-! ### From the word back to the word -/

/-- `w` is the word of the well-formed instruction `i`. -/
def IsWordOf (w : Word) (i : Instr) : Prop := i.WellFormed ∧ encode i = w

theorem isWordOf_decodeFamily0 {w : Word} (hop : (opField w).toNat = 0) : IsWordOf w (decodeFamily0 w) := by
  have word : formatA 0x0 (nnnField w) = w := formatA_of_opField hop
  unfold decodeFamily0
  split
  case isTrue h => exact ⟨rfl, h.symm⟩
  case isFalse hcls =>
    split
    case isTrue h => exact ⟨rfl, h.symm⟩
    case isFalse hret =>
      refine ⟨?_, word⟩
      have notCls : nnnField w ≠ 0x0E0#12 := fun h => hcls (by rw [← word, h]; rfl)
      have notRet : nnnField w ≠ 0x0EE#12 := fun h => hret (by rw [← word, h]; rfl)
      simp [Instr.WellFormed, Instr.wellFormed, notCls, notRet]

theorem isWordOf_decodeFamily8 {w : Word} {i : Instr} (hop : (opField w).toNat = 8)
    (h : decodeFamily8 w = .ok i) : IsWordOf w i := by
  unfold decodeFamily8 at h
  split at h <;> cases h
  all_goals exact ⟨rfl, formatRR_of_opField_nField hop ‹_›⟩

theorem isWordOf_decodeFamilyE {w : Word} {i : Instr} (hop : (opField w).toNat = 0xE)
    (h : decodeFamilyE w = .ok i) : IsWordOf w i := by
  unfold decodeFamilyE at h
  split at h <;> cases h
  all_goals exact ⟨rfl, formatRI_of_opField_kkField hop ‹_›⟩

theorem isWordOf_decodeFamilyF {w : Word} {i : Instr} (hop : (opField w).toNat = 0xF)
    (h : decodeFamilyF w = .ok i) : IsWordOf w i := by
  unfold decodeFamilyF at h
  split at h <;> cases h
  all_goals exact ⟨rfl, formatRI_of_opField_kkField hop ‹_›⟩

/-- Settles O2: each family keeps every field it decodes, and the fields it does not keep are those its format fixes. -/
theorem encodeOfDecodeIsTheWord : Obligations.EncodeOfDecodeIsTheWord := by
  intro w i h
  change IsWordOf w i
  unfold decode at h
  split at h
  case h_1 hop => cases h; exact isWordOf_decodeFamily0 hop
  case h_2 hop | h_3 hop | h_11 hop | h_12 hop => cases h; exact ⟨rfl, formatA_of_opField hop⟩
  case h_4 hop | h_5 hop | h_7 hop | h_8 hop | h_13 hop => cases h; exact ⟨rfl, formatRI_of_opField hop⟩
  case h_6 hop | h_10 hop =>
    split at h <;> cases h
    case isTrue hn => exact ⟨rfl, formatRR_of_opField_nField hop (congrArg BitVec.toNat hn)⟩
  case h_9 hop => exact isWordOf_decodeFamily8 hop h
  case h_14 hop => cases h; exact ⟨rfl, formatRR_of_opField hop⟩
  case h_15 hop => exact isWordOf_decodeFamilyE hop h
  case h_16 =>
    have hop : (opField w).toNat = 0xF := by
      have bound := (opField w).isLt
      simp only [imp_false] at *
      omega
    exact isWordOf_decodeFamilyF hop h

/-! ### From the instruction back to the instruction -/

/-- Settles O1: the format of the instruction's family gives back the fields that the decoder reads. -/
theorem decodeOfEncodeIsTheInstruction : Obligations.DecodeOfEncodeIsTheInstruction := by
  intro i wf
  cases i with
  | cls | ret => rfl
  | sys nnn =>
    obtain ⟨notCls, notRet⟩ : nnn ≠ 0x0E0#12 ∧ nnn ≠ 0x0EE#12 := by
      simpa [Instr.WellFormed, Instr.wellFormed] using wf
    have notClsWord : formatA 0x0 nnn ≠ 0x00E0#16 := fun h => notCls (by rw [← nnnField_formatA 0x0 nnn, h]; rfl)
    have notRetWord : formatA 0x0 nnn ≠ 0x00EE#16 := fun h => notRet (by rw [← nnnField_formatA 0x0 nnn, h]; rfl)
    simp only [encode, decode, opField_formatA, decodeFamily0, notClsWord, notRetWord, if_false, nnnField_formatA]
    rfl
  | jp _ | call _ | jpV0 _ | ldI _ => simp [encode, decode]
  | seImm _ _ | sneImm _ _ | ldImm _ _ | addImm _ _ | rnd _ _ => simp [encode, decode]
  | seReg _ _ | sneReg _ _ | drw _ _ _ => simp [encode, decode]
  | ldReg _ _ | or _ _ | and _ _ | xor _ _ | addReg _ _ | sub _ _ | shr _ _ | subn _ _ | shl _ _ =>
    simp [encode, decode, decodeFamily8]
  | skp _ | sknp _ => simp [encode, decode, decodeFamilyE]
  | addI _ | ldF _ | ldVxDt _ | ldVxK _ | ldDtVx _ | ldStVx _ | ldB _ | stRegs _ | ldRegs _ =>
    simp [encode, decode, decodeFamilyF]

/-! ### What decodes to nothing (R67, R68) -/

theorem decodeFamily8_error_iff (w : Word) : (∃ e, decodeFamily8 w = .error e) ↔
    nField w ∈ [0x8#4, 0x9#4, 0xA#4, 0xB#4, 0xC#4, 0xD#4, 0xF#4] := by
  unfold decodeFamily8
  split
  case h_10 =>
    have bound := (nField w).isLt
    simp only [imp_false] at *
    simp [← BitVec.toNat_inj]
    omega
  all_goals
    rename_i hn
    simp [← BitVec.toNat_inj, hn]

theorem decodeFamilyE_error_iff (w : Word) : (∃ e, decodeFamilyE w = .error e) ↔
    kkField w ∉ [0x9E#8, 0xA1#8] := by
  unfold decodeFamilyE
  split <;> simp_all [← BitVec.toNat_inj]

theorem decodeFamilyF_error_iff (w : Word) : (∃ e, decodeFamilyF w = .error e) ↔
    kkField w ∉ [0x07#8, 0x0A#8, 0x15#8, 0x18#8, 0x1E#8, 0x29#8, 0x33#8, 0x55#8, 0x65#8] := by
  unfold decodeFamilyF
  split <;> simp_all [← BitVec.toNat_inj]

/-- Families 5 and 9 have one operation each, with low nibble 0 (R68). -/
theorem error_of_ite_iff {c : Prop} [Decidable c] {i : Instr} {d : DecodeReject} :
    (∃ e, (if c then Except.ok i else Except.error d) = .error e) ↔ ¬ c := by
  by_cases h : c <;> simp [h]

/-- Settles O5: the families with sub-operations leave out what R67 and R68 list, and the other families leave out
nothing. -/
theorem undefinedWordsAreExactlyTheListed : Obligations.UndefinedWordsAreExactlyTheListed := by
  intro w
  unfold decode
  split
  case h_9 hop => rw [decodeFamily8_error_iff]; simp [← BitVec.toNat_inj, hop]
  case h_15 hop => rw [decodeFamilyE_error_iff]; simp [← BitVec.toNat_inj, hop]
  case h_6 hop | h_10 hop => rw [error_of_ite_iff]; simp [← BitVec.toNat_inj, hop]
  case h_16 =>
    have hop : (opField w).toNat = 0xF := by
      have bound := (opField w).isLt
      simp only [imp_false] at *
      omega
    rw [decodeFamilyF_error_iff]
    simp [← BitVec.toNat_inj, hop]
  all_goals
    rename_i hop
    simp [← BitVec.toNat_inj, hop]

/-- Settles O6: each of these words is evaluated by the decoder. -/
theorem decodesTheSpecsWords : Obligations.DecodesTheSpecsWords := by
  unfold Obligations.DecodesTheSpecsWords
  decide

end Sys2Proof
end

section
/-!
PROOFS. The opcode map (30_encoding.md R65, R66): which words two rows share, what a row's mask keeps of a word, and
that the decode procedure answers the row that the map answers.
-/

namespace Sys2Proof

/-- The word matches the row by mask and match. -/
def MatchesRow (w : Word) (r : Nat × Word × Word) : Prop := w &&& r.2.1 = r.2.2

/-! ### Two rows of one word -/

/-- A word of two rows makes each row's match, cut down to the other's mask, the same. -/
theorem MatchesRow.compatible {w : Word} {r q : Nat × Word × Word} (hr : MatchesRow w r) (hq : MatchesRow w q) :
    r.2.2 &&& q.2.1 = q.2.2 &&& r.2.1 := by
  rw [← hr, ← hq, BitVec.and_assoc, BitVec.and_assoc, BitVec.and_comm r.2.1]

/-- Of the rows of the map only `SYS` is compatible with another, with `CLS` and with `RET` (R66). -/
theorem opcodeMap_compatible : ∀ r ∈ opcodeMap, ∀ q ∈ opcodeMap, r.2.2 &&& q.2.1 = q.2.2 &&& r.2.1 →
    r = q ∨ (r.1 = 3 ∧ (q.1 = 1 ∨ q.1 = 2)) ∨ (q.1 = 3 ∧ (r.1 = 1 ∨ r.1 = 2)) := by
  decide

/-- Settles O4: two rows of one word are compatible, and the finite map has no other compatible pairs. -/
theorem opcodeRowsOverlapOnlyAtSys : Obligations.OpcodeRowsOverlapOnlyAtSys :=
  fun _ r hr q hq matches_r matches_q =>
    opcodeMap_compatible r hr q hq (MatchesRow.compatible matches_r matches_q)

/-! ### What a mask keeps -/

section masks
variable (w : Word)

theorem and_F000 : w &&& 0xF000#16 = formatA (opField w) 0 := by
  conv_lhs => rw [← formatA_fields w]
  change (opField w ++ nnnField w) &&& (BitVec.allOnes 4 ++ 0#12) = _
  rw [BitVec.and_append, BitVec.and_allOnes, BitVec.and_zero]
  rfl

theorem and_F0FF : w &&& 0xF0FF#16 = formatRI (opField w) 0 (kkField w) := by
  conv_lhs => rw [← formatRI_fields w]
  change (opField w ++ (BitVec.ofFin (xField w) : Nibble) ++ kkField w) &&&
    (BitVec.allOnes 4 ++ 0#4 ++ BitVec.allOnes 8) = _
  rw [BitVec.and_append, BitVec.and_append, BitVec.and_allOnes, BitVec.and_allOnes, BitVec.and_zero]
  rfl

theorem and_F00F : w &&& 0xF00F#16 = formatRR (opField w) 0 0 (nField w) := by
  conv_lhs => rw [← formatRR_fields w]
  change (opField w ++ (BitVec.ofFin (xField w) : Nibble) ++ (BitVec.ofFin (yField w) : Nibble) ++ nField w : Word) &&&
    (BitVec.allOnes 4 ++ 0#4 ++ 0#4 ++ BitVec.allOnes 4 : Word) = _
  rw [BitVec.and_append, BitVec.and_append, BitVec.and_append, BitVec.and_allOnes, BitVec.and_allOnes,
    BitVec.and_zero, BitVec.and_zero]
  rfl

end masks

/-! ### Every instruction's word is of its row -/

theorem rowOf_pred_lt (i : Instr) : rowOf i - 1 < opcodeMap.length := by
  have length : opcodeMap.length = 35 := rfl
  cases i <;> simp [rowOf, length]

/-- The row of the map that an instruction belongs to: the rows stand in the order of their numbers. -/
def rowEntry (i : Instr) : Nat × Word × Word := opcodeMap[rowOf i - 1]'(rowOf_pred_lt i)

theorem rowEntry_mem (i : Instr) : rowEntry i ∈ opcodeMap := List.getElem_mem _

theorem rowEntry_fst (i : Instr) : (rowEntry i).1 = rowOf i := by cases i <;> rfl

theorem matchesRow_encode (i : Instr) : MatchesRow (encode i) (rowEntry i) := by
  cases i with
  | cls | ret => rfl
  | sys _ | jp _ | call _ | jpV0 _ | ldI _ => exact (and_F000 _).trans (by rw [encode, opField_formatA]; rfl)
  | seImm _ _ | sneImm _ _ | ldImm _ _ | addImm _ _ | rnd _ _ =>
    exact (and_F000 _).trans (by rw [encode, opField_formatRI]; rfl)
  | drw _ _ _ => exact (and_F000 _).trans (by rw [encode, opField_formatRR]; rfl)
  | seReg _ _ | sneReg _ _ | ldReg _ _ | or _ _ | and _ _ | xor _ _ | addReg _ _ | sub _ _ | shr _ _ | subn _ _
  | shl _ _ =>
    exact (and_F00F _).trans (by rw [encode, opField_formatRR, nField_formatRR]; rfl)
  | addI _ | ldF _ | skp _ | sknp _ | ldVxDt _ | ldVxK _ | ldDtVx _ | ldStVx _ | ldB _ | stRegs _ | ldRegs _ =>
    exact (and_F0FF _).trans (by rw [encode, opField_formatRI, kkField_formatRI]; rfl)

/-! ### The fields a row fixes -/

section rowFields
variable {w : Word} {r : Nat × Word × Word}

/-- Every mask keeps the whole top nibble. -/
theorem MatchesRow.opField_eq (mem : r ∈ opcodeMap) (h : MatchesRow w r) : opField w = opField r.2.2 := by
  have mask : ∀ r ∈ opcodeMap, opField r.2.1 = BitVec.allOnes 4 := by decide
  have cut : opField (w &&& r.2.1) = opField w &&& opField r.2.1 := BitVec.extractLsb'_and
  rw [← h, cut, mask r mem, BitVec.and_allOnes]

theorem MatchesRow.nField_eq (mask : r.2.1 = 0xF00F#16) (h : MatchesRow w r) : nField w = nField r.2.2 := by
  rw [← h, mask, and_F00F, nField_formatRR]

theorem MatchesRow.kkField_eq (mask : r.2.1 = 0xF0FF#16) (h : MatchesRow w r) : kkField w = kkField r.2.2 := by
  rw [← h, mask, and_F0FF, kkField_formatRI]

end rowFields

/-! ### The two readings of a word -/

/-- A word that decodes to nothing matches no row: the rows of its family fix a low nibble or a low byte, and the word's
is none of them (R67, R68). -/
theorem not_matchesRow_of_undefined {w : Word} (undefined : ∃ e, decode w = .error e) {r : Nat × Word × Word}
    (mem : r ∈ opcodeMap) : ¬ MatchesRow w r := by
  intro h
  have family := h.opField_eq mem
  rcases (undefinedWordsAreExactlyTheListed w).1 undefined with ⟨hop, hn⟩ | ⟨hop, hn⟩ | ⟨hop, hkk⟩ | ⟨hop, hkk⟩
  · have rows8 : ∀ r ∈ opcodeMap, opField r.2.2 = 0x8 → r.2.1 = 0xF00F#16 ∧
        nField r.2.2 ∉ [0x8#4, 0x9#4, 0xA#4, 0xB#4, 0xC#4, 0xD#4, 0xF#4] := by decide
    obtain ⟨mask, free⟩ := rows8 r mem (family ▸ hop)
    exact free (h.nField_eq mask ▸ hn)
  · have rows59 : ∀ r ∈ opcodeMap, opField r.2.2 = 0x5 ∨ opField r.2.2 = 0x9 → r.2.1 = 0xF00F#16 ∧
        nField r.2.2 = 0x0 := by decide
    obtain ⟨mask, zero⟩ := rows59 r mem (family ▸ hop)
    exact hn ((h.nField_eq mask).trans zero)
  · have rowsE : ∀ r ∈ opcodeMap, opField r.2.2 = 0xE → r.2.1 = 0xF0FF#16 ∧
        kkField r.2.2 ∈ [0x9E#8, 0xA1#8] := by decide
    obtain ⟨mask, listed⟩ := rowsE r mem (family ▸ hop)
    exact hkk (h.kkField_eq mask ▸ listed)
  · have rowsF : ∀ r ∈ opcodeMap, opField r.2.2 = 0xF → r.2.1 = 0xF0FF#16 ∧
        kkField r.2.2 ∈ [0x07#8, 0x0A#8, 0x15#8, 0x18#8, 0x1E#8, 0x29#8, 0x33#8, 0x55#8, 0x65#8] := by decide
    obtain ⟨mask, listed⟩ := rowsF r mem (family ▸ hop)
    exact hkk (h.kkField_eq mask ▸ listed)

/-- Of the words of the map only those of `CLS` and `RET` are of more than one row. -/
theorem MatchesRow.unique {w : Word} (notCls : w ≠ 0x00E0#16) (notRet : w ≠ 0x00EE#16) {r q : Nat × Word × Word}
    (hr : r ∈ opcodeMap) (hq : q ∈ opcodeMap) (matches_r : MatchesRow w r) (matches_q : MatchesRow w q) : r = q := by
  have whole : ∀ r ∈ opcodeMap, r.1 = 1 ∨ r.1 = 2 →
      r.2.1 = BitVec.allOnes 16 ∧ (r.2.2 = 0x00E0#16 ∨ r.2.2 = 0x00EE#16) := by
    decide
  have neither : ∀ r ∈ opcodeMap, MatchesRow w r → ¬ (r.1 = 1 ∨ r.1 = 2) := by
    intro r hr h first
    obtain ⟨mask, word⟩ := whole r hr first
    rw [MatchesRow, mask, BitVec.and_allOnes] at h
    rcases word with word | word
    · exact notCls (h.trans word)
    · exact notRet (h.trans word)
  rcases opcodeRowsOverlapOnlyAtSys w r hr q hq matches_r matches_q with same | ⟨_, first⟩ | ⟨_, first⟩
  · exact same
  · exact absurd first (neither q hq matches_q)
  · exact absurd first (neither r hr matches_r)

/-- The map answers the row of the instruction a word decodes to. -/
theorem lookupRow_of_decode {w : Word} {i : Instr} (h : decode w = .ok i) : lookupRow w = some (rowOf i) := by
  by_cases notCls : w = 0x00E0#16
  · subst notCls; cases h; rfl
  by_cases notRet : w = 0x00EE#16
  · subst notRet; cases h; rfl
  have matches_i : MatchesRow w (rowEntry i) := (encodeOfDecodeIsTheWord w i h).2 ▸ matchesRow_encode i
  unfold lookupRow
  cases found : opcodeMap.find? fun r => w &&& r.2.1 == r.2.2 with
  | none => exact absurd (beq_iff_eq.2 matches_i) (List.find?_eq_none.1 found _ (rowEntry_mem i))
  | some q =>
    have matches_q : w &&& q.2.1 = q.2.2 := by simpa using List.find?_some found
    have same := MatchesRow.unique notCls notRet (rowEntry_mem i) (List.mem_of_find?_eq_some found) matches_i matches_q
    rw [← same, Option.map_some, rowEntry_fst]

/-- Settles O3: a word that decodes is of its instruction's row and of no earlier one; an undefined word is of none. -/
theorem decodeProcedureAgreesWithOpcodeMap : Obligations.DecodeProcedureAgreesWithOpcodeMap := by
  intro w
  unfold decodedRow
  cases h : decode w with
  | ok i => exact (lookupRow_of_decode h).symm
  | error e =>
    have none : opcodeMap.find? (fun r => w &&& r.2.1 == r.2.2) = none := List.find?_eq_none.2 fun r mem beq =>
      not_matchesRow_of_undefined ⟨e, h⟩ mem (beq_iff_eq.1 beq)
    rw [lookupRow, none]
    rfl

end Sys2Proof
end

section
/-!
PROOFS. Arithmetic and logic (42_alu.md R100 to R112): each meaning as one write, the values and flags as numbers, then
the statements.
-/

namespace Sys2Proof.Machine

/-! ### The meanings -/

section meanings
variable (x y : Reg) (kk : Byte) (s : State)

theorem exec_addImm : exec (.addImm x kk) s = .next (s.setV x (s.getV x + kk)) := rfl

theorem exec_or : exec (.or x y) s = .next (s.setV x (s.getV x ||| s.getV y)) := rfl

theorem exec_and : exec (.and x y) s = .next (s.setV x (s.getV x &&& s.getV y)) := rfl

theorem exec_xor : exec (.xor x y) s = .next (s.setV x (s.getV x ^^^ s.getV y)) := rfl

theorem exec_addReg : exec (.addReg x y) s =
    .next (s.writeFlagResult x (carryFlag (s.getV x) (s.getV y)) (s.getV x + s.getV y)) := rfl

theorem exec_sub : exec (.sub x y) s =
    .next (s.writeFlagResult x (noBorrowFlag (s.getV x) (s.getV y)) (s.getV x - s.getV y)) := rfl

theorem exec_subn : exec (.subn x y) s =
    .next (s.writeFlagResult x (noBorrowFlag (s.getV y) (s.getV x)) (s.getV y - s.getV x)) := rfl

theorem exec_shr : exec (.shr x y) s =
    .next (s.writeFlagResult x (shrFlag (s.getV x)) (s.getV x >>> 1)) := rfl

theorem exec_shl : exec (.shl x y) s =
    .next (s.writeFlagResult x (shlFlag s.params.shlFlagNormalize (s.getV x)) (s.getV x <<< 1)) := rfl

end meanings

/-! ### The result and the flag after the two writes (R101) -/

section writes
variable (x : Reg) (flag result : Byte) (s : State)

@[simp] theorem State.getV_writeFlagResult_self : (s.writeFlagResult x flag result).getV x = result := by
  rw [State.getV_writeFlagResult, if_pos rfl]

theorem State.getV_writeFlagResult_flag {x : Reg} (hx : x ≠ 15) :
    (s.writeFlagResult x flag result).getV 15 = flag := by
  rw [State.getV_writeFlagResult, if_neg hx.symm, if_pos rfl]

/-- With `VF` as the destination only `VF` is written. -/
theorem Frame.of_writeFlagResult_flag : Frame [15] [] s (s.writeFlagResult 15 flag result) :=
  (Frame.of_writeFlagResult s 15 flag result).mono (by simp) (List.Subset.refl _)

end writes

/-! ### Values and flags as numbers -/

section numbers
variable (p q : Byte)

theorem toNat_byte_add : (p + q).toNat = (p.toNat + q.toNat) % 256 := BitVec.toNat_add p q

theorem toNat_byte_sub : ((p - q).toNat : Int) = ((p.toNat : Int) - q.toNat) % 256 := by
  have hp := p.isLt
  have hq := q.isLt
  rw [BitVec.toNat_sub]
  omega

theorem toNat_byte_shr : (p >>> 1).toNat = p.toNat / 2 := by
  rw [BitVec.toNat_ushiftRight, Nat.shiftRight_eq_div_pow]

theorem toNat_byte_shl : (p <<< 1).toNat = p.toNat * 2 % 256 := by
  rw [BitVec.toNat_shiftLeft, Nat.shiftLeft_eq]

theorem flagByte_decide (c : Prop) [Decidable c] : flagByte (decide c) = if c then 1 else 0 := by
  by_cases h : c <;> simp [flagByte, h]

theorem toNat_shrFlag : (shrFlag p).toNat = p.toNat % 2 := by
  rw [shrFlag, BitVec.toNat_and]
  exact Nat.and_one_is_mod _

/-- The top bit of a byte, in place, is its upper half's count of 128 (R112). -/
theorem toNat_shlFlag (normalize : Bool) : (shlFlag normalize p).toNat =
    p.toNat / 128 * (if normalize then 1 else 128) := by
  have topBit : p.toNat / 128 < 2 := by have hp := p.isLt; omega
  cases normalize with
  | true =>
    have bit : ((p >>> 7) &&& 0x01#8).toNat = p.toNat / 128 % 2 := by
      rw [BitVec.toNat_and, BitVec.toNat_ushiftRight, Nat.shiftRight_eq_div_pow]
      exact Nat.and_one_is_mod _
    simp only [shlFlag, if_true, bit]
    omega
  | false =>
    have bit : (p &&& 0x80#8).toNat = p.toNat / 128 % 2 * 128 := by
      rw [BitVec.toNat_and]
      calc p.toNat &&& 2 ^ 7 = (p.toNat.testBit 7).toNat * 2 ^ 7 := Nat.and_two_pow _ _
        _ = p.toNat / 128 % 2 * 128 := congrArg (· * 128) (Nat.toNat_testBit _ _)
    simp only [shlFlag, if_false, bit, Bool.false_eq_true]
    omega

end numbers

/-! ### The statements -/

/-- Settles O30: the byte sum wraps, and only `V[x]` is written. -/
theorem addImmediateWraps : Obligations.AddImmediateWraps := fun x kk s =>
  ⟨s.setV x (s.getV x + kk), exec_addImm x kk s, by rw [State.getV_setV_self, toNat_byte_add], Frame.of_setV s x _⟩

/-- Settles O31: each operation is core's on the bits of the two bytes. -/
theorem logicWorksBitByBit : Obligations.LogicWorksBitByBit := fun x y s =>
  ⟨⟨_, exec_or x y s, Frame.of_setV s x _, fun b _ => by rw [State.getV_setV_self, BitVec.getLsbD_or]⟩,
    ⟨_, exec_and x y s, Frame.of_setV s x _, fun b _ => by rw [State.getV_setV_self, BitVec.getLsbD_and]⟩,
    ⟨_, exec_xor x y s, Frame.of_setV s x _, fun b _ => by rw [State.getV_setV_self, BitVec.getLsbD_xor]⟩⟩

/-- Settles O32: the destination holds the wrapped sum and `VF` the carry. -/
theorem addSetsSumAndCarry : Obligations.AddSetsSumAndCarry := fun x y s hx =>
  ⟨_, exec_addReg x y s, by rw [State.getV_writeFlagResult_self, toNat_byte_add],
    by rw [State.getV_writeFlagResult_flag _ _ s hx]; exact flagByte_decide _, Frame.of_writeFlagResult s x _ _⟩

/-- Settles O33: `SUBN` is `SUB` with the operands exchanged, and each flag compares as the difference is taken. -/
theorem subtractsSetDifferenceAndNoBorrow : Obligations.SubtractsSetDifferenceAndNoBorrow := fun x y s hx =>
  ⟨⟨_, exec_sub x y s, by rw [State.getV_writeFlagResult_self, toNat_byte_sub],
      by rw [State.getV_writeFlagResult_flag _ _ s hx]; exact flagByte_decide _, Frame.of_writeFlagResult s x _ _⟩,
    ⟨_, exec_subn x y s, by rw [State.getV_writeFlagResult_self, toNat_byte_sub],
      by rw [State.getV_writeFlagResult_flag _ _ s hx]; exact flagByte_decide _, Frame.of_writeFlagResult s x _ _⟩⟩

/-- Settles O34: the shifts halve and double, and each flag is the bit that the shift moves out. -/
theorem shiftsMoveOneBitIntoTheFlag : Obligations.ShiftsMoveOneBitIntoTheFlag := fun x y s hx =>
  ⟨⟨_, exec_shr x y s, by rw [State.getV_writeFlagResult_self, toNat_byte_shr],
      by rw [State.getV_writeFlagResult_flag _ _ s hx, toNat_shrFlag], Frame.of_writeFlagResult s x _ _⟩,
    ⟨_, exec_shl x y s, by rw [State.getV_writeFlagResult_self, toNat_byte_shl],
      by rw [State.getV_writeFlagResult_flag _ _ s hx, toNat_shlFlag], Frame.of_writeFlagResult s x _ _⟩⟩

/-- Settles O35: the result is written after the flag, so it is what `VF` holds. -/
theorem flagRegisterAsDestinationHoldsTheResult : Obligations.FlagRegisterAsDestinationHoldsTheResult := fun y s =>
  ⟨⟨_, exec_addReg 15 y s, by rw [State.getV_writeFlagResult_self, toNat_byte_add],
      Frame.of_writeFlagResult_flag _ _ s⟩,
    ⟨_, exec_sub 15 y s, by rw [State.getV_writeFlagResult_self, toNat_byte_sub], Frame.of_writeFlagResult_flag _ _ s⟩,
    ⟨_, exec_subn 15 y s, by rw [State.getV_writeFlagResult_self, toNat_byte_sub], Frame.of_writeFlagResult_flag _ _ s⟩,
    ⟨_, exec_shr 15 y s, by rw [State.getV_writeFlagResult_self, toNat_byte_shr], Frame.of_writeFlagResult_flag _ _ s⟩,
    ⟨_, exec_shl 15 y s, by rw [State.getV_writeFlagResult_self, toNat_byte_shl], Frame.of_writeFlagResult_flag _ _ s⟩⟩

end Sys2Proof.Machine
end

section
/-!
PROOFS. `ADD I, Vx` and `RND` (43_address_random.md R121, R123): a sum in 16 bits, a masked draw, then the statements.
-/

namespace Sys2Proof.Machine

/-- A frame may list more parts than changed. -/
theorem Frame.mono_parts {regs : List Reg} {parts parts' : List Part} {s t : State} (h : Frame regs parts s t)
    (hparts : parts ⊆ parts') : Frame regs parts' s t :=
  h.mono (List.Subset.refl _) hparts

/-- A frame may list more registers than changed. -/
theorem Frame.mono_regs {regs regs' : List Reg} {parts : List Part} {s t : State} (h : Frame regs parts s t)
    (hregs : regs ⊆ regs') : Frame regs' parts s t :=
  h.mono hregs (List.Subset.refl _)

/-- Counting a draw changes the draw counter alone. -/
theorem Frame.of_countDraw (s : State) : Frame [] [.draws] s s.countDraw :=
  ⟨fun q _ => s.countDraw_getV q, fun p hp => by cases p <;> simp_all [Part.Same]⟩

theorem exec_addI (x : Reg) (s : State) : exec (.addI x) s = .next (s.setI (s.i + zextByte (s.getV x))) := rfl

theorem exec_rnd (x : Reg) (kk : Byte) (s : State) :
    exec (.rnd x kk) s = .next (s.countDraw.setV x (Config.draw8 s.draws &&& kk)) := rfl

/-- Settles O37: the sum wraps at 16 bits, and only `I` is written. -/
theorem addToAddressWraps : Obligations.AddToAddressWraps := fun x s =>
  ⟨_, exec_addI x s, by rw [State.setI_i, BitVec.toNat_add, toNat_zextByte], Frame.of_setI s _⟩

/-- Settles O38: a masked byte has no bit outside the mask, so it is at most the mask. -/
theorem randomByteIsMasked : Obligations.RandomByteIsMasked := by
  intro x kk s
  refine ⟨_, exec_rnd x kk s, State.getV_setV_self _ x _, ?_, rfl, ?_⟩
  · rw [State.getV_setV_self, BitVec.toNat_and]
    exact Nat.and_le_right
  · exact ((Frame.of_countDraw s).mono_regs (List.nil_subset _)).trans
      ((Frame.of_setV s.countDraw x _).mono_parts (List.nil_subset _))

end Sys2Proof.Machine
end

section
/-!
PROOFS. The keyboard skips (45_keyboard.md R150 to R152): what the key test decides, then the statement.
-/

namespace Sys2Proof.Machine

/-- An index above 15 is not pressed; one of the sixteen keys is as its level says (R150). -/
theorem State.keyDown_iff (s : State) (b : Byte) :
    s.keyDown b = true ↔ b.toNat ≤ 15 ∧ s.keys.getLsbD b.toNat = true := by
  unfold State.keyDown
  by_cases h : b.toNat ≤ 15 <;> simp [h]

theorem State.not_keyDown_iff (s : State) (b : Byte) :
    (!s.keyDown b) = true ↔ ¬ (b.toNat ≤ 15 ∧ s.keys.getLsbD b.toNat = true) := by
  rw [← State.keyDown_iff]
  cases s.keyDown b <;> decide

theorem exec_skp (x : Reg) (s : State) : exec (.skp x) s = .next (s.skipIf (s.keyDown (s.getV x))) := rfl

theorem exec_sknp (x : Reg) (s : State) : exec (.sknp x) s = .next (s.skipIf (!s.keyDown (s.getV x))) := rfl

/-- Settles O28: both are skips on the key test, `SKNP` on its negation. -/
theorem keySkipsTestTheLevel : Obligations.KeySkipsTestTheLevel := by
  intro x s
  obtain ⟨pressed, frame⟩ := s.skipIf_of_iff (s.keyDown_iff (s.getV x))
  obtain ⟨released, frame'⟩ := s.skipIf_of_iff (s.not_keyDown_iff (s.getV x))
  exact ⟨⟨_, exec_skp x s, frame, pressed⟩, ⟨_, exec_sknp x s, frame', released.trans (ite_not _ _ _)⟩⟩

end Sys2Proof.Machine
end

section
/-!
PROOFS. `RET`, `SYS` and `CALL` (40_control.md R81, R82, R84) and the three faults (60_exceptions.md R181 to R183): what
a fault leaves, each meaning on its two paths, then the statements.
-/

namespace Sys2Proof.Machine

/-! ### Taking a fault -/

/-- Taking a fault changes the fault and its two latches alone. -/
theorem Frame.of_raiseFault (s : State) (f : FaultStatus) (w a : Word) :
    Frame [] [.faultLatches] s (s.raiseFault f w a) :=
  ⟨fun q _ => s.raiseFault_getV f w a q, fun p hp => by cases p <;> simp_all [Part.Same]⟩

/-- HALTED is a fault recorded (10_state.md R21). -/
theorem State.engineState_halted_iff (s : State) : s.engineState = .halted ↔ s.fault ≠ .none := by
  unfold State.engineState
  by_cases hf : s.fault = .none <;> by_cases hw : s.waitReg = none <;> simp [hf, hw]

/-- The address of the running instruction is two before the advanced `pc`. -/
theorem State.instrAddr_add_two (s : State) : s.instrAddr + 2 = s.pc := BitVec.sub_add_cancel s.pc 2#16

/-! ### The meanings -/

/-- Pushing and jumping changes `pc` and the return stack alone. -/
theorem Frame.of_setStack_setPc (s : State) (l : List Word) (a : Word) :
    Frame [] [.programCounter, .returnStack] s ((s.setStack l).setPc a) :=
  ⟨fun q _ => rfl, fun p hp => by cases p <;> simp_all [Part.Same]⟩

theorem exec_sys (nnn : Addr12) (s : State) :
    exec (.sys nnn) s = .next (s.raiseFault .decodeFailure (encode (.sys nnn)) s.instrAddr) := rfl

theorem exec_ret_of_cons {s : State} {a : Word} {l : List Word} (h : s.stack = a :: l) :
    exec .ret s = .next ((s.setStack l).setPc a) := by
  simp only [exec, execRet, State.pop, h]

theorem exec_ret_of_nil {s : State} (h : s.stack = []) :
    exec .ret s = .next (s.raiseFault .stackUnderflow 0x00EE#16 s.instrAddr) := by
  simp only [exec, execRet, State.pop, h]

theorem exec_call_of_room (nnn : Addr12) {s : State} (h : s.params.stackDepth ≠ some s.stack.length) :
    exec (.call nnn) s = .next ((s.setStack (s.pc :: s.stack)).setPc (zextAddr nnn)) :=
  if_neg fun full => h (s.stackFull_iff.1 full)

theorem exec_call_of_full (nnn : Addr12) {s : State} (h : s.params.stackDepth = some s.stack.length) :
    exec (.call nnn) s = .next (s.raiseFault .stackOverflow (encode (.call nnn)) s.instrAddr) :=
  if_pos (s.stackFull_iff.2 h)

/-- What `RET` can do. -/
theorem exec_ret_cases {s t : State} (h : exec .ret s = .next t) :
    (s.stack = [] ∧ t = s.raiseFault .stackUnderflow 0x00EE#16 s.instrAddr) ∨
    ∃ a l, s.stack = a :: l ∧ t = (s.setStack l).setPc a := by
  cases stack : s.stack with
  | nil => rw [exec_ret_of_nil stack] at h; cases h; exact .inl ⟨rfl, rfl⟩
  | cons a l => rw [exec_ret_of_cons stack] at h; cases h; exact .inr ⟨a, l, rfl, rfl⟩

/-- What `CALL` can do. -/
theorem exec_call_cases {nnn : Addr12} {s t : State} (h : exec (.call nnn) s = .next t) :
    (s.params.stackDepth = some s.stack.length ∧
      t = s.raiseFault .stackOverflow (encode (.call nnn)) s.instrAddr) ∨
    (s.params.stackDepth ≠ some s.stack.length ∧ t = (s.setStack (s.pc :: s.stack)).setPc (zextAddr nnn)) := by
  by_cases full : s.params.stackDepth = some s.stack.length
  · rw [exec_call_of_full nnn full] at h; cases h; exact .inl ⟨full, rfl⟩
  · rw [exec_call_of_room nnn full] at h; cases h; exact .inr ⟨full, rfl⟩

/-! ### The statements -/

/-- Settles O22: on a non-empty stack the newest entry becomes `pc`, on an empty one the fault is taken. -/
theorem retPopsOrUnderflows : Obligations.RetPopsOrUnderflows :=
  ⟨rfl, fun s a l h => ⟨_, exec_ret_of_cons h, rfl, rfl, Frame.of_setStack_setPc s l a⟩,
    fun s h => ⟨_, exec_ret_of_nil h, rfl, rfl, rfl, s.instrAddr_add_two,
      (State.engineState_halted_iff _).2 FaultStatus.noConfusion, Frame.of_raiseFault s _ _ _⟩⟩

/-- Settles O23: `SYS` only takes the fault, with its own word. -/
theorem sysRaisesDecodeFailure : Obligations.SysRaisesDecodeFailure := fun nnn s =>
  ⟨_, exec_sys nnn s, rfl, rfl, (toNat_formatA 0x0 nnn).trans (Nat.zero_add _), s.instrAddr_add_two,
    (State.engineState_halted_iff _).2 FaultStatus.noConfusion, Frame.of_raiseFault s _ _ _⟩

/-- Settles O25: with room the advanced `pc` is pushed, on a full stack the fault is taken. -/
theorem callPushesOrOverflows : Obligations.CallPushesOrOverflows :=
  ⟨fun nnn s room => ⟨_, exec_call_of_room nnn room, toNat_zextAddr nnn, rfl, Frame.of_setStack_setPc s _ _⟩,
    fun nnn s full => ⟨_, exec_call_of_full nnn full, rfl, rfl, toNat_formatA 0x2 nnn, s.instrAddr_add_two,
      (State.engineState_halted_iff _).2 FaultStatus.noConfusion, Frame.of_raiseFault s _ _ _⟩⟩

/-- Settles O26: the entry `CALL` pushes is the one `RET` pops. -/
theorem retComesBackFromCall : Obligations.RetComesBackFromCall := by
  intro nnn s t u room call stack
  obtain ⟨full, _⟩ | ⟨_, rfl⟩ := exec_call_cases call
  · exact absurd full room
  · exact ⟨_, exec_ret_of_cons stack, rfl, rfl⟩

end Sys2Proof.Machine
end

section
/-!
PROOFS. The timer transfers (46_timer_bcd_block.md R160, R162, R163): the frames of the writes to the timers, then the
statement.
-/

namespace Sys2Proof.Machine

/-- Writing `DT` changes `DT` alone. -/
theorem Frame.of_setDt (s : State) (b : Byte) : Frame [] [.delayTimer] s (s.setDt b) :=
  ⟨fun q _ => s.setDt_getV b q, fun p hp => by cases p <;> simp_all [Part.Same]⟩

/-- Writing `ST` changes `ST` alone. -/
theorem Frame.of_setSt (s : State) (b : Byte) : Frame [] [.soundTimer] s (s.setSt b) :=
  ⟨fun q _ => s.setSt_getV b q, fun p hp => by cases p <;> simp_all [Part.Same]⟩

theorem exec_ldVxDt (x : Reg) (s : State) : exec (.ldVxDt x) s = .next (s.setV x s.dt) := rfl

theorem exec_ldDtVx (x : Reg) (s : State) : exec (.ldDtVx x) s = .next (s.setDt (s.getV x)) := rfl

theorem exec_ldStVx (x : Reg) (s : State) : exec (.ldStVx x) s = .next (s.setSt (s.getV x)) := rfl

/-- Settles O45: each transfer is one write of the byte read. -/
theorem timerTransfersCopyTheByte : Obligations.TimerTransfersCopyTheByte := fun x s =>
  ⟨⟨_, exec_ldVxDt x s, s.getV_setV_self x _, Frame.of_setV s x _⟩,
    ⟨_, exec_ldDtVx x s, rfl, Frame.of_setDt s _⟩, ⟨_, exec_ldStVx x s, rfl, Frame.of_setSt s _⟩⟩

end Sys2Proof.Machine
end

section
/-!
PROOFS. The decimal store, the block store and the block load (46_timer_bcd_block.md R165 to R167), and the load of an
image (70_reset_and_hazards.md R222): the frame of a list of stores and of a block load, then the statements.
-/

namespace Sys2Proof.Machine

/-! ### Frames -/

/-- Storing bytes changes memory alone. -/
theorem Frame.of_memWriteList (s : State) (a : Nat) (bs : List Byte) : Frame [] [.memory] s (s.memWriteList a bs) :=
  ⟨fun q _ => s.memWriteList_getV a bs q, fun p hp => by cases p <;> simp_all [Part.Same]⟩

/-- The block load changes the registers it names alone. -/
theorem Frame.of_loadRegs (s : State) (base : Nat) (rs : List Reg) : Frame rs [] s (s.loadRegs base rs) :=
  ⟨fun q hq => by rw [State.loadRegs_getV, if_neg hq], fun p _ => by cases p <;> simp [Part.Same]⟩

/-- Storing bytes leaves every byte but those at their addresses. -/
theorem MemSameOutside.of_memWriteList (s : State) (a : Nat) (bs : List Byte) :
    MemSameOutside a bs.length s (s.memWriteList a bs) :=
  fun c outside => s.memRead_memWriteList_outside a c bs outside

/-! ### The meanings -/

theorem exec_ldB (x : Reg) (s : State) :
    exec (.ldB x) s = .next (s.memWriteList s.i.toNat (decimalDigits (s.getV x))) := rfl

theorem exec_stRegs (x : Reg) (s : State) : exec (.stRegs x) s = .next (s.memWriteList s.i.toNat (s.regsTo x)) := rfl

theorem exec_ldRegs (x : Reg) (s : State) : exec (.ldRegs x) s = .next (s.loadRegs s.i.toNat (regsUpTo x)) := rfl

/-- A block store puts `V[r]` at `I + r` for every `r` up to `x`: at most 16 bytes, so none is written over. -/
theorem State.memRead_stRegs (s : State) {x r : Reg} (h : r ≤ x) :
    (s.memWriteList s.i.toNat (s.regsTo x)).memRead (s.i.toNat + r.val) = s.getV r := by
  have inBlock : r.val < (s.regsTo x).length := by rw [State.length_regsTo]; exact Nat.lt_succ_of_le h
  have short : (s.regsTo x).length ≤ memSize := by rw [State.length_regsTo]; exact le_trans x.isLt (by decide)
  rw [State.memRead_memWriteList s _ _ _ inBlock short, State.getElem_regsTo s x r.val inBlock r.isLt]

/-! ### The statements -/

/-- Settles O49: the three digits are short enough a list that each is read back. -/
theorem decimalStoreWritesThreeDigits : Obligations.DecimalStoreWritesThreeDigits := by
  intro x s
  have short : (decimalDigits (s.getV x)).length ≤ memSize := show 3 ≤ 4096 by decide
  have digit (k : Nat) (hk : k < 3) := s.memRead_memWriteList s.i.toNat k (decimalDigits (s.getV x)) hk short
  refine ⟨_, exec_ldB x s, ?_, ?_, ?_, MemSameOutside.of_memWriteList s _ (decimalDigits (s.getV x)),
    Frame.of_memWriteList s _ _⟩
  · exact (congrArg BitVec.toNat (digit 0 (by decide))).trans BitVec.toNat_udiv
  · exact (congrArg BitVec.toNat (digit 1 (by decide))).trans BitVec.toNat_udiv
  · exact (congrArg BitVec.toNat (digit 2 (by decide))).trans BitVec.toNat_umod

/-- Settles O50: the bytes stored are those of the registers up to `x`. -/
theorem blockStoreWritesRegistersToX : Obligations.BlockStoreWritesRegistersToX := by
  intro x s
  have outside := MemSameOutside.of_memWriteList s s.i.toNat (s.regsTo x)
  rw [State.length_regsTo] at outside
  exact ⟨_, exec_stRegs x s, fun r h => s.memRead_stRegs h, outside, Frame.of_memWriteList s _ _⟩

/-- Settles O51: the block load writes the registers up to `x` from memory and nothing else. -/
theorem blockLoadReadsRegistersToX : Obligations.BlockLoadReadsRegistersToX := by
  intro x s
  refine ⟨_, exec_ldRegs x s, fun r h => ?_, Frame.of_loadRegs s _ _⟩
  rw [State.loadRegs_getV, if_pos ((mem_regsUpTo x r).2 h)]

/-- Settles O52: the load reads at the addresses the store wrote. -/
theorem blockLoadRestoresTheStoredRegisters : Obligations.BlockLoadRestoresTheStoredRegisters := by
  intro x s t u store sameI sameMem
  rw [exec_stRegs] at store
  cases store
  rw [State.memWriteList_i] at sameI
  refine ⟨_, exec_ldRegs x u, fun q h => ?_⟩
  rw [State.loadRegs_getV, if_pos ((mem_regsUpTo x q).2 h), sameI, sameMem, State.memRead_stRegs s h]

/-! ### The load of an image -/

theorem Frame.of_setLoaded (s : State) (b : Bool) : Frame [] [.loadedBit] s (s.setLoaded b) :=
  ⟨fun q _ => s.setLoaded_getV b q, fun p hp => by cases p <;> simp_all [Part.Same]⟩

theorem State.loadImage_of_fits {s : State} {image : List Byte} (empty : s.loaded = false)
    (fits : image.length ≤ progMax) : s.loadImage image = .next ((s.memWriteList progBase image).setLoaded true) := by
  simp [State.loadImage, empty, fits]

theorem State.loadImage_of_too_long {s : State} {image : List Byte} (empty : s.loaded = false)
    (long : progMax < image.length) : s.loadImage image = .next s := by
  simp [State.loadImage, empty, Nat.not_le.2 long]

theorem State.loadImage_of_loaded {s : State} (image : List Byte) (loaded : s.loaded = true) :
    s.loadImage image = .refused .loadAfterLoad := if_pos loaded

/-- Settles O59: an image that fits is shorter than memory, so each of its bytes is read back. -/
theorem loadCopiesTheImage : Obligations.LoadCopiesTheImage := by
  refine ⟨fun s image empty fits => ?_, fun s image empty long => State.loadImage_of_too_long empty long,
    fun s image loaded => State.loadImage_of_loaded image loaded⟩
  refine ⟨_, State.loadImage_of_fits empty fits, rfl, fun j h => ?_, fun c outside => ?_, ?_⟩
  · rw [State.setLoaded_memRead]
    exact s.memRead_memWriteList 0x200 j image h (le_trans fits (by decide))
  · rw [State.setLoaded_memRead]
    exact MemSameOutside.of_memWriteList s 0x200 image c outside
  · exact ((Frame.of_memWriteList s 0x200 image).mono_parts (by simp)).trans
      ((Frame.of_setLoaded _ true).mono_parts (by simp))

end Sys2Proof.Machine
end

section
/-!
PROOFS. `SetPixel` (44_draw.md R132, R133, R138): what one call does to every cell, its index, then the statements.
-/

namespace Sys2Proof.Machine

/-! ### One call -/

theorem Display.toggle_toggle (d : Display) {k : Nat} (hk : k < cells) : (d.toggle k).toggle k = d := by
  apply Display.ext_cell
  intro j _
  rw [Display.cell_toggle _ hk, Display.cell_toggle _ hk]
  by_cases h : j = k <;> simp [h]

section setPixel
variable (d : Display) (cx cy : Int)

/-- `SetPixel` toggles the cell that its index names and leaves every other cell. -/
theorem cell_setPixel {k : Nat} (hk : k < 2048) :
    (setPixel d cx cy).1.cell k = if pixelIndex cx cy = (k : Int) then !d.cell k else d.cell k := by
  by_cases inside : 0 ≤ pixelIndex cx cy ∧ pixelIndex cx cy < 2048
  · have isCell : (pixelIndex cx cy).toNat < cells := by simp only [cells]; omega
    rw [setPixel_inside d inside, Display.cell_toggle d isCell]
    exact if_congr (by omega) rfl rfl
  · rw [setPixel_outside d inside, if_neg (by omega)]

/-- `SetPixel` reports an erase exactly when its index names a lit cell. -/
theorem setPixel_erased_iff :
    (setPixel d cx cy).2 = true ↔ ∃ k : Nat, k < 2048 ∧ pixelIndex cx cy = (k : Int) ∧ d.cell k = true := by
  by_cases inside : 0 ≤ pixelIndex cx cy ∧ pixelIndex cx cy < 2048
  · rw [setPixel_inside d inside]
    constructor
    · exact fun lit => ⟨(pixelIndex cx cy).toNat, by omega, by omega, lit⟩
    · rintro ⟨k, _, index, lit⟩
      rwa [index, Int.toNat_natCast]
  · rw [setPixel_outside d inside]
    exact ⟨fun h => absurd h Bool.false_ne_true, fun ⟨k, hk, index, _⟩ => absurd (by omega) inside⟩

end setPixel

/-! ### The index -/

/-- A coordinate of at least 0 is kept or lowered by the bound. -/
theorem wrap1_of_nonneg {c b : Int} (h : 0 ≤ c) : (c < b ∧ wrap1 c b = c) ∨ (b ≤ c ∧ wrap1 c b = c - b) := by
  rcases lt_or_ge c b with below | above
  · exact .inl ⟨below, wrap1_of_inside h below⟩
  · exact .inr ⟨above, wrap1_of_ge above⟩

/-- The wrap of a coordinate of at least minus the bound is not negative. -/
theorem wrap1_nonneg {c b : Int} (hb : 0 < b) (h : -b ≤ c) : 0 ≤ wrap1 c b := by
  rcases lt_or_ge c 0 with neg | nonneg
  · rw [wrap1_of_neg hb neg]; omega
  · rcases wrap1_of_nonneg (b := b) nonneg with ⟨_, eq⟩ | ⟨above, eq⟩ <;> rw [eq] <;> omega

section index
variable {cx cy : Int}

theorem pixelIndex_eq (cx cy : Int) : pixelIndex cx cy = wrap1 cx 64 + 64 * wrap1 cy 32 := by
  rw [pixelIndex, Int.mul_comm]

theorem pixelIndex_of_near (hx : -64 ≤ cx) (hx' : cx < 128) (hy : -32 ≤ cy) (hy' : cy < 64) :
    pixelIndex cx cy = cx % 64 + 64 * (cy % 32) := by
  rw [pixelIndex_eq, (wrap1_eq_emod_iff (by decide)).2 ⟨hx, hx'⟩, (wrap1_eq_emod_iff (by decide)).2 ⟨hy, hy'⟩]

/-- A column too far right keeps what one subtraction leaves, and each 64 of that is one row lower. -/
theorem pixelIndex_of_right (hx : 128 ≤ cx) (hy : -32 ≤ cy) (hy' : cy < 64) :
    pixelIndex cx cy = (cx - 64) % 64 + 64 * (cy % 32 + (cx - 64) / 64) := by
  rw [pixelIndex_eq, wrap1_of_ge (by omega), (wrap1_eq_emod_iff (by decide)).2 ⟨hy, hy'⟩]
  have split := Int.emod_add_mul_ediv (cx - 64) 64
  omega

theorem pixelIndex_of_below (hx : -64 ≤ cx) (hy : 64 ≤ cy) : 2048 ≤ pixelIndex cx cy := by
  have column := wrap1_nonneg (by decide) hx
  rw [pixelIndex_eq, wrap1_of_ge (c := cy) (by omega)]
  omega

end index

/-! ### The statements -/

/-- Settles O40: what one call does to each cell, and the index on each range of the coordinates. -/
theorem setPixelTogglesOneCell : Obligations.SetPixelTogglesOneCell :=
  ⟨fun d cx cy => ⟨fun _ hk => cell_setPixel d cx cy hk, setPixel_erased_iff d cx cy⟩,
    fun cx cy => ⟨pixelIndex_eq cx cy, pixelIndex_of_near, pixelIndex_of_right, pixelIndex_of_below⟩⟩

/-- Settles O41: inside the buffer the second call toggles the same cell, outside neither call does anything. -/
theorem setPixelIsItsOwnInverse : Obligations.SetPixelIsItsOwnInverse := by
  intro d cx cy
  by_cases inside : 0 ≤ pixelIndex cx cy ∧ pixelIndex cx cy < 2048
  · have isCell : (pixelIndex cx cy).toNat < cells := by simp only [cells]; omega
    simp only [setPixel_inside _ inside]
    refine ⟨Display.toggle_toggle d isCell, fun _ => ?_, fun outside => absurd inside outside⟩
    rw [Display.cell_toggle d isCell, if_pos rfl]
  · have nothing := setPixel_outside d inside
    rw [nothing]
    exact ⟨congrArg Prod.fst nothing, fun h => absurd h inside, fun _ => ⟨rfl, congrArg Prod.snd nothing⟩⟩

/-- Settles O42: two columns of one sprite differ by less than 8, so their wraps differ by a multiple of 64 only if they
are one; the rows then differ by less than 15 and their wraps by a multiple of 32 only if they are one. -/
theorem drawReachesNoCellTwice : Obligations.DrawReachesNoCellTwice := by
  intro vx vy row row' col col' hrow hrow' hcol hcol' _ _ index
  rw [pixelIndex_eq, pixelIndex_eq] at index
  have wrapCol := wrap1_of_nonneg (b := 64) (Int.natCast_nonneg (vx + col))
  have wrapCol' := wrap1_of_nonneg (b := 64) (Int.natCast_nonneg (vx + col'))
  have wrapRow := wrap1_of_nonneg (b := 32) (Int.natCast_nonneg (vy + row))
  have wrapRow' := wrap1_of_nonneg (b := 32) (Int.natCast_nonneg (vy + row'))
  omega

end Sys2Proof.Machine
end

section
/-!
PROOFS. `DRW` (44_draw.md R136 to R139): setting a list of pixels of which no two have one index, the pixels of a
sprite, then the two statements.
-/

namespace Sys2Proof.Machine

/-! ### Setting pixels with distinct indices -/

/-- The list sets a pixel with the index `k`. -/
def Hits (ps : List (Int × Int)) (k : Nat) : Prop := ∃ p ∈ ps, pixelIndex p.1 p.2 = (k : Int)

theorem hits_cons {p : Int × Int} {ps : List (Int × Int)} {k : Nat} :
    Hits (p :: ps) k ↔ pixelIndex p.1 p.2 = (k : Int) ∨ Hits ps k := by
  simp [Hits]

/-- No two pixels of the list have one index. -/
def DistinctIndices (ps : List (Int × Int)) : Prop :=
  ps.Pairwise fun p q => pixelIndex p.1 p.2 ≠ pixelIndex q.1 q.2

theorem DistinctIndices.not_hits_tail {p : Int × Int} {ps : List (Int × Int)} (h : DistinctIndices (p :: ps))
    {k : Nat} (index : pixelIndex p.1 p.2 = (k : Int)) : ¬ Hits ps k := by
  rintro ⟨q, mem, index'⟩
  exact (List.pairwise_cons.1 h).1 q mem (index.trans index'.symm)

/-- Each cell that is hit is toggled, once, and no other is. -/
theorem cell_setPixels {ps : List (Int × Int)} (distinct : DistinctIndices ps) (acc : Display × Bool) {k : Nat}
    (hk : k < 2048) : (Hits ps k → (setPixels ps acc).1.cell k = !acc.1.cell k) ∧
      (¬ Hits ps k → (setPixels ps acc).1.cell k = acc.1.cell k) := by
  induction ps generalizing acc with
  | nil => exact ⟨fun ⟨_, mem, _⟩ => absurd mem List.not_mem_nil, fun _ => rfl⟩
  | cons p ps ih =>
    obtain ⟨hit, miss⟩ := ih (List.pairwise_cons.1 distinct).2
      ((setPixel acc.1 p.1 p.2).1, acc.2 || (setPixel acc.1 p.1 p.2).2)
    dsimp only at hit miss
    rw [cell_setPixel _ _ _ hk] at hit miss
    rw [hits_cons]
    by_cases index : pixelIndex p.1 p.2 = (k : Int)
    · have first := miss (distinct.not_hits_tail index)
      rw [if_pos index] at first
      exact ⟨fun _ => first, fun h => absurd (.inl index) h⟩
    · rw [if_neg index] at hit miss
      exact ⟨fun h => hit (h.resolve_left index), fun h => miss fun later => h (.inr later)⟩

/-- The collision is set exactly when a cell that is hit was lit at the start: no cell is hit a second time. -/
theorem setPixels_erased_iff {ps : List (Int × Int)} (distinct : DistinctIndices ps) (acc : Display × Bool) :
    (setPixels ps acc).2 = true ↔ acc.2 = true ∨ ∃ k : Nat, k < 2048 ∧ Hits ps k ∧ acc.1.cell k = true := by
  induction ps generalizing acc with
  | nil => simp [setPixels, Hits]
  | cons p ps ih =>
    have later := ih (List.pairwise_cons.1 distinct).2
      ((setPixel acc.1 p.1 p.2).1, acc.2 || (setPixel acc.1 p.1 p.2).2)
    dsimp only at later
    refine later.trans ?_
    rw [Bool.or_eq_true, setPixel_erased_iff, or_assoc]
    refine or_congr_right ⟨?_, ?_⟩
    · rintro (⟨k, hk, index, lit⟩ | ⟨k, hk, hit, lit⟩)
      · exact ⟨k, hk, hits_cons.2 (.inl index), lit⟩
      · rw [cell_setPixel _ _ _ hk, if_neg fun index => distinct.not_hits_tail index hit] at lit
        exact ⟨k, hk, hits_cons.2 (.inr hit), lit⟩
    · rintro ⟨k, hk, hit, lit⟩
      rcases hits_cons.1 hit with index | hit
      · exact .inl ⟨k, hk, index, lit⟩
      · refine .inr ⟨k, hk, hit, ?_⟩
        rwa [cell_setPixel _ _ _ hk, if_neg fun index => distinct.not_hits_tail index hit]

/-! ### The pixels of a sprite -/

theorem rowHits_nodup (s : Byte) (vx cy : Nat) : (rowHits s vx cy).Nodup := by
  refine List.Nodup.map ?_ (List.nodup_range.filter _)
  intro c c' h
  have columns : ((vx + c : Nat) : Int) = ((vx + c' : Nat) : Int) := congrArg Prod.fst h
  omega

theorem spriteHits_nodup (vx cy : Nat) (ss : List Byte) : (spriteHits vx cy ss).Nodup := by
  induction ss generalizing cy with
  | nil => exact List.nodup_nil
  | cons s ss ih =>
    refine List.Nodup.append (rowHits_nodup s vx cy) (ih (cy + 1)) ?_
    intro z first later
    obtain ⟨c, _, rfl⟩ := List.mem_map.1 first
    obtain ⟨row, _, col, _, _, eq⟩ := (mem_spriteHits _ _ _ _).1 later
    have rows : (cy : Int) = ((cy + 1 + row : Nat) : Int) := congrArg Prod.snd eq
    omega

/-- No two pixels of a sprite of at most 15 rows have one index, wherever it is drawn (R139). -/
theorem spriteHits_distinctIndices {vx vy : Nat} {ss : List Byte} (short : ss.length ≤ 15) (hx : vx < 256)
    (hy : vy < 256) : DistinctIndices (spriteHits vx vy ss) := by
  refine (spriteHits_nodup vx vy ss).imp_of_mem ?_
  intro p q hp hq ne index
  obtain ⟨row, hrow, col, hcol, _, rfl⟩ := (mem_spriteHits _ _ _ _).1 hp
  obtain ⟨row', hrow', col', hcol', _, rfl⟩ := (mem_spriteHits _ _ _ _).1 hq
  obtain ⟨rfl, rfl⟩ := drawReachesNoCellTwice vx vy row row' col col' (by omega) (by omega) hcol hcol' hx hy index
  exact ne rfl

/-- The pixels that `DRW Vx, Vy, n` sets. -/
def State.drawHits (s : State) (x y : Reg) (n : Nibble) : List (Int × Int) :=
  spriteHits (s.getV x).toNat (s.getV y).toNat (s.spriteRows n.toNat)

section drawHits
variable (s : State) (x y : Reg) (n : Nibble)

theorem State.length_spriteRows (k : Nat) : (s.spriteRows k).length = k := by
  rw [State.spriteRows, List.length_map, List.length_range]

theorem State.drawHits_distinctIndices : DistinctIndices (s.drawHits x y n) := by
  refine spriteHits_distinctIndices ?_ (s.getV x).isLt (s.getV y).isLt
  rw [State.length_spriteRows]
  exact Nat.le_of_lt_succ n.isLt

/-- The cells that the pixels name are those the sprite covers. -/
theorem State.hits_drawHits_iff (k : Nat) : Hits (s.drawHits x y n) k ↔ SpriteCovers s x y n k := by
  constructor
  · rintro ⟨p, mem, index⟩
    obtain ⟨row, hrow, col, hcol, bit, rfl⟩ := (mem_spriteHits _ _ _ _).1 mem
    refine ⟨row, by rwa [State.length_spriteRows] at hrow, col, hcol, ?_, index⟩
    simpa [State.spriteRows] using bit
  · rintro ⟨row, hrow, col, hcol, bit, index⟩
    refine ⟨_, (mem_spriteHits _ _ _ _).2 ⟨row, by rwa [State.length_spriteRows], col, hcol, ?_, rfl⟩, index⟩
    simpa [State.spriteRows] using bit

end drawHits

/-! ### The meaning -/

/-- The display and the collision after the sprite's pixels are set. -/
def State.drawResult (s : State) (x y : Reg) (n : Nibble) : Display × Bool :=
  setPixels (s.drawHits x y n) (s.disp, false)

theorem exec_drw (x y : Reg) (n : Nibble) (s : State) : exec (.drw x y n) s =
    .next ((s.setDisp (s.drawResult x y n).1).setV 15 (flagByte (s.drawResult x y n).2)) := by
  rw [State.drawResult, State.drawHits, ← drawRows_eq_setPixels]
  rfl

theorem State.drawResult_erased_iff (s : State) (x y : Reg) (n : Nibble) :
    (s.drawResult x y n).2 = true ↔ ∃ k : Nat, k < 2048 ∧ SpriteCovers s x y n k ∧ s.disp.cell k = true := by
  rw [State.drawResult, setPixels_erased_iff (s.drawHits_distinctIndices x y n)]
  simp only [Bool.false_eq_true, false_or, State.hits_drawHits_iff]

/-- Drawing changes the display and `VF` alone. -/
theorem Frame.of_setDisp_setV (s : State) (d : Display) (x : Reg) (b : Byte) :
    Frame [x] [.display] s ((s.setDisp d).setV x b) :=
  ((Frame.of_setDisp s d).mono_regs (List.nil_subset _)).trans
    ((Frame.of_setV _ x b).mono_parts (List.nil_subset _))

/-! ### The statements -/

/-- Settles O43: the sprite's pixels have distinct indices, so each covered cell is toggled once, and the collision is
that of the display before the draw. -/
theorem drawXorsTheSprite : Obligations.DrawXorsTheSprite := by
  intro x y n s
  have cell {k : Nat} (hk : k < 2048) := cell_setPixels (s.drawHits_distinctIndices x y n) (s.disp, false) hk
  simp only [State.hits_drawHits_iff] at cell
  have collision := s.drawResult_erased_iff x y n
  refine ⟨_, exec_drw x y n s, fun k hk covered => (cell hk).1 covered, fun k hk free => (cell hk).2 free, ?_, ?_,
    Frame.of_setDisp_setV s _ 15 _⟩
  · intro lit
    rw [State.getV_setV_self, collision.2 lit]
    rfl
  · intro dark
    rw [State.getV_setV_self, Bool.eq_false_iff.2 (mt collision.1 dark)]
    rfl

/-- Two states with the same position, `I` and memory draw the same sprite. -/
theorem spriteCovers_congr {s t : State} {x y : Reg} (n : Nibble) (hx : t.getV x = s.getV x)
    (hy : t.getV y = s.getV y) (hi : t.i = s.i) (hm : ∀ a, t.memRead a = s.memRead a) (k : Nat) :
    SpriteCovers t x y n k ↔ SpriteCovers s x y n k := by
  simp only [SpriteCovers, State.dataAddr, hx, hy, hi, hm]

/-- Settles O44: the second draw covers the same cells, so each is toggled twice; one that was clear is lit by the first
draw and so is a collision of the second. -/
theorem drawingTwiceRestoresTheDisplay : Obligations.DrawingTwiceRestoresTheDisplay := by
  intro x y n s t first hx hy
  obtain ⟨t', first', toggled, kept, _, _, _, same⟩ := drawXorsTheSprite x y n s
  obtain rfl : t' = t := Host.Outcome.next.inj (first'.symm.trans first)
  obtain ⟨u, second, toggled', kept', lit', _⟩ := drawXorsTheSprite x y n t'
  have covers := spriteCovers_congr n hx hy (same .addressRegister (by decide)) (same .memory (by decide))
  refine ⟨u, second, Display.ext_cell fun k hk => ?_, ?_⟩
  · by_cases covered : SpriteCovers s x y n k
    · rw [toggled' k hk ((covers k).2 covered), toggled k hk covered, Bool.not_not]
    · rw [kept' k hk (mt (covers k).1 covered), kept k hk covered]
  · rintro ⟨k, hk, covered, clear⟩
    exact lit' ⟨k, hk, (covers k).2 covered, by rw [toggled k hk covered, clear]; rfl⟩

end Sys2Proof.Machine
end

section
/-!
PROOFS. What each instruction writes (10_state.md R34): the access summary as two tables, each instruction within its
row of them, and the statements that read them off. Then that no instruction reads the sound timer or the position in
the tick.
-/

namespace Sys2Proof.Machine

/-! ### The access summary -/

/-- The general registers an instruction may write. -/
def writtenRegs : Instr → List Reg
  | .addReg x _ | .sub x _ | .subn x _ | .shr x _ | .shl x _ => [x, 15]
  | .drw _ _ _ => [15]
  | .ldImm x _ | .addImm x _ | .rnd x _ | .ldReg x _ | .or x _ | .and x _ | .xor x _ | .ldVxDt x => [x]
  | .ldRegs x => regsUpTo x
  | _ => []

/-- The parts of the state an instruction may write. -/
def writtenParts : Instr → List Part
  | .cls | .drw _ _ _ => [.display]
  | .ret | .call _ => [.programCounter, .returnStack, .faultLatches]
  | .sys _ => [.faultLatches]
  | .jp _ | .jpV0 _ | .seImm _ _ | .sneImm _ _ | .seReg _ _ | .sneReg _ _ | .skp _ | .sknp _ => [.programCounter]
  | .ldI _ | .addI _ | .ldF _ => [.addressRegister]
  | .rnd _ _ => [.draws]
  | .ldVxK _ => [.waitRegister]
  | .ldDtVx _ => [.delayTimer]
  | .ldStVx _ => [.soundTimer]
  | .ldB _ | .stRegs _ => [.memory]
  | _ => []

/-! ### Every instruction keeps within its row -/

/-- `RET` changes `pc` and the stack, or takes a fault. -/
theorem exec_ret_frame (s : State) :
    ∃ t, exec .ret s = .next t ∧ Frame [] [.programCounter, .returnStack, .faultLatches] s t := by
  cases stack : s.stack with
  | nil => exact ⟨_, exec_ret_of_nil stack, (Frame.of_raiseFault s _ _ _).mono_parts (by simp)⟩
  | cons a l => exact ⟨_, exec_ret_of_cons stack, (Frame.of_setStack_setPc s l a).mono_parts (by simp)⟩

/-- `CALL` changes `pc` and the stack, or takes a fault. -/
theorem exec_call_frame (nnn : Addr12) (s : State) :
    ∃ t, exec (.call nnn) s = .next t ∧ Frame [] [.programCounter, .returnStack, .faultLatches] s t := by
  by_cases full : s.params.stackDepth = some s.stack.length
  · exact ⟨_, exec_call_of_full nnn full, (Frame.of_raiseFault s _ _ _).mono_parts (by simp)⟩
  · exact ⟨_, exec_call_of_room nnn full, (Frame.of_setStack_setPc s _ _).mono_parts (by simp)⟩

/-- Every instruction completes in a next state and changes only what the access summary lists for it. -/
theorem exec_frame (i : Instr) (s : State) :
    ∃ t, exec i s = .next t ∧ Frame (writtenRegs i) (writtenParts i) s t := by
  cases i with
  | cls => exact ⟨_, exec_cls s, Frame.of_setDisp s _⟩
  | ret => exact exec_ret_frame s
  | sys nnn => exact ⟨_, exec_sys nnn s, Frame.of_raiseFault s _ _ _⟩
  | call nnn => exact exec_call_frame nnn s
  | jp _ | jpV0 _ => exact ⟨_, rfl, Frame.of_setPc s _⟩
  | seImm _ _ | sneImm _ _ | seReg _ _ | sneReg _ _ | skp _ | sknp _ => exact ⟨_, rfl, Frame.of_skipIf s _⟩
  | ldImm x _ | addImm x _ | ldReg x _ | or x _ | and x _ | xor x _ | ldVxDt x =>
    exact ⟨_, rfl, Frame.of_setV s x _⟩
  | addReg x _ | sub x _ | subn x _ | shr x _ | shl x _ => exact ⟨_, rfl, Frame.of_writeFlagResult s x _ _⟩
  | ldI _ | addI _ | ldF _ => exact ⟨_, rfl, Frame.of_setI s _⟩
  | rnd x kk =>
    obtain ⟨t, next, _, _, _, frame⟩ := randomByteIsMasked x kk s
    exact ⟨t, next, frame⟩
  | drw x y n => exact ⟨_, exec_drw x y n s, Frame.of_setDisp_setV s _ 15 _⟩
  | ldVxK x => exact ⟨_, exec_ldVxK x s, Frame.of_setWait s _⟩
  | ldDtVx x => exact ⟨_, exec_ldDtVx x s, Frame.of_setDt s _⟩
  | ldStVx x => exact ⟨_, exec_ldStVx x s, Frame.of_setSt s _⟩
  | ldB _ | stRegs _ => exact ⟨_, rfl, Frame.of_memWriteList s _ _⟩
  | ldRegs x => exact ⟨_, exec_ldRegs x s, Frame.of_loadRegs s _ _⟩

section changes
variable {i : Instr} {s t : State}

theorem Frame.of_exec (h : exec i s = .next t) : Frame (writtenRegs i) (writtenParts i) s t := by
  obtain ⟨u, next, frame⟩ := exec_frame i s
  obtain rfl : u = t := Host.Outcome.next.inj (next.symm.trans h)
  exact frame

theorem Part.same_of_exec (h : exec i s = .next t) {p : Part} (notWritten : p ∉ writtenParts i) : p.Same s t :=
  (Frame.of_exec h).2 p notWritten

theorem mem_writtenParts (h : exec i s = .next t) {p : Part} (changed : ¬ p.Same s t) : p ∈ writtenParts i :=
  by_contra fun notWritten => changed (Part.same_of_exec h notWritten)

theorem mem_writtenRegs (h : exec i s = .next t) {q : Reg} (changed : t.getV q ≠ s.getV q) : q ∈ writtenRegs i :=
  by_contra fun notWritten => changed ((Frame.of_exec h).1 q notWritten)

end changes

/-! ### The tables read by column -/

/-- The parts that no instruction writes. -/
def neverWritten : List Part := [.loadedBit, .outputs, .inputs, .batch, .params]

theorem not_mem_writtenParts_of_neverWritten (i : Instr) {p : Part} (h : p ∈ neverWritten) : p ∉ writtenParts i := by
  have table : ∀ p ∈ neverWritten, p ∉ writtenParts i := by cases i <;> simp [writtenParts, neverWritten]
  exact table p h

theorem Part.same_of_neverWritten {i : Instr} {s t : State} (h : exec i s = .next t) {p : Part}
    (never : p ∈ neverWritten) : p.Same s t :=
  Part.same_of_exec h (not_mem_writtenParts_of_neverWritten i never)

/-- The writers of a general register. -/
theorem writers_of_register {i : Instr} {q : Reg} (h : q ∈ writtenRegs i) :
    (∃ x y, (i = .addReg x y ∨ i = .sub x y ∨ i = .subn x y ∨ i = .shr x y ∨ i = .shl x y) ∧ (q = x ∨ q = 15)) ∨
    (q = 15 ∧ ∃ x y n, i = .drw x y n) ∨ (∃ kk, i = .ldImm q kk ∨ i = .addImm q kk ∨ i = .rnd q kk) ∨
    (∃ y, i = .ldReg q y ∨ i = .or q y ∨ i = .and q y ∨ i = .xor q y) ∨ i = .ldVxDt q ∨
    ∃ x, q ≤ x ∧ i = .ldRegs x := by
  cases i <;> simp [writtenRegs] at h ⊢ <;> simp [h]

/-! ### The statements -/

/-- Settles O15: every instruction completes, and no row of the access summary lists one of these parts. -/
theorem everyInstructionCompletesInsideTheEngine : Obligations.EveryInstructionCompletesInsideTheEngine := by
  intro i s
  obtain ⟨t, next, frame⟩ := exec_frame i s
  refine ⟨t, next, fun p mem => frame.2 p (not_mem_writtenParts_of_neverWritten i ?_)⟩
  fin_cases mem <;> decide

/-- Settles O57: what an instruction changes is listed in its row, and each column lists the instructions named. -/
theorem onlyTheNamedInstructionsWriteEachPart : Obligations.OnlyTheNamedInstructionsWriteEachPart := by
  intro i s t h
  refine ⟨fun q changed => writers_of_register (mem_writtenRegs h changed), ?_⟩
  refine ⟨?_, ?_, ?_, ?_, ?_, ?_, ?_, ?_, ?_, ?_, ?_⟩
  case refine_11 => exact fun p mem => Part.same_of_neverWritten h (by fin_cases mem <;> decide)
  all_goals
    intro changed
    have row := mem_writtenParts h changed
    clear h changed
    cases i <;> simp [writtenParts] at row ⊢

/-- Settles O58: the column of register 15; a block load reaches it only with `x = 15`. -/
theorem flagRegisterWriters : Obligations.FlagRegisterWriters := by
  intro i s t h changed
  rcases writers_of_register (mem_writtenRegs h changed) with
    ⟨x, y, flag, _⟩ | ⟨_, draw⟩ | imm | reg | timer | ⟨x, top, block⟩
  · exact .inl ⟨x, y, flag⟩
  · exact .inr (.inl draw)
  · exact .inr (.inr (.inl imm))
  · exact .inr (.inr (.inr (.inl reg)))
  · exact .inr (.inr (.inr (.inr (.inl timer))))
  · obtain rfl : x = 15 := Fin.last_le_iff.1 top
    exact .inr (.inr (.inr (.inr (.inr block))))

end Sys2Proof.Machine
end

section
/-!
PROOFS. Two fields that no instruction reads: the sound timer (10_state.md R18) and the model's position in the tick
(log 22). An instruction run with other values in them does the same to everything else.
-/

namespace Sys2Proof.Machine

/-- The state with the sound timer and the position in the tick replaced by functions of themselves. -/
def State.mapStBatch (s : State) (f : Byte → Byte) (g : Nat → Nat) : State :=
  { s with st := f s.st, batch := g s.batch }

theorem State.mapStBatch_setSt (s : State) (b : Byte) : s.mapStBatch (fun _ => b) id = s.setSt b := rfl

theorem State.mapStBatch_setBatch (s : State) (n : Nat) : s.mapStBatch id (fun _ => n) = s.setBatch n := rfl

section mapStBatch
variable (s : State) (f : Byte → Byte) (g : Nat → Nat)

theorem State.skipIf_mapStBatch (c : Bool) : (s.mapStBatch f g).skipIf c = (s.skipIf c).mapStBatch f g := by
  cases c <;> rfl

theorem State.memWriteList_mapStBatch (a : Nat) (bs : List Byte) :
    (s.mapStBatch f g).memWriteList a bs = (s.memWriteList a bs).mapStBatch f g := by
  induction bs generalizing s a with
  | nil => rfl
  | cons b bs ih => exact ih (s.memWrite a b) (a + 1)

theorem State.loadRegs_mapStBatch (base : Nat) (rs : List Reg) :
    (s.mapStBatch f g).loadRegs base rs = (s.loadRegs base rs).mapStBatch f g := by
  induction rs generalizing s with
  | nil => rfl
  | cons r rs ih => exact ih (s.setV r (s.memRead (base + r.val)))

/-- No instruction reads the two fields, and only `LD ST, Vx` writes one of them. -/
theorem exec_mapStBatch {i : Instr} {s t : State} (h : exec i s = .next t) (hf : (∀ x, i ≠ .ldStVx x) ∨ f = id) :
    exec i (s.mapStBatch f g) = .next (t.mapStBatch f g) := by
  cases i with
  | ret =>
    obtain ⟨stack, rfl⟩ | ⟨a, l, stack, rfl⟩ := exec_ret_cases h
    · exact exec_ret_of_nil stack
    · exact exec_ret_of_cons stack
  | call nnn =>
    obtain ⟨full, rfl⟩ | ⟨room, rfl⟩ := exec_call_cases h
    · exact exec_call_of_full nnn full
    · exact exec_call_of_room nnn room
  | ldStVx x =>
    obtain rfl : f = id := hf.resolve_left fun ne => ne x rfl
    cases h
    rfl
  | seImm _ _ | sneImm _ _ | seReg _ _ | sneReg _ _ | skp _ | sknp _ =>
    cases h
    exact congrArg Host.Outcome.next (s.skipIf_mapStBatch f g _)
  | ldB _ | stRegs _ =>
    cases h
    exact congrArg Host.Outcome.next (s.memWriteList_mapStBatch f g _ _)
  | ldRegs _ =>
    cases h
    exact congrArg Host.Outcome.next (s.loadRegs_mapStBatch f g _ _)
  | _ => cases h; rfl

end mapStBatch

/-- Settles O60: only `LD ST, Vx` touches `ST`, and it writes `V[x]` whatever `ST` was. -/
theorem noInstructionReadsTheSoundTimer : Obligations.NoInstructionReadsTheSoundTimer := by
  intro i s b
  by_cases writes : ∃ x, i = .ldStVx x
  · obtain ⟨x, rfl⟩ := writes
    exact ⟨_, _, exec_ldStVx x s, exec_ldStVx x (s.setSt b), rfl⟩
  · obtain ⟨t, next, _⟩ := exec_frame i s
    have next' := exec_mapStBatch (fun _ => b) id next (.inl (not_exists.1 writes))
    rw [State.mapStBatch_setSt, State.mapStBatch_setSt] at next'
    exact ⟨t, t.setSt b, next, next', rfl⟩

end Sys2Proof.Machine
end

section
/-!
PROOFS. The fetch (20_memory.md R42, R48), the placed instruction (log 23) and one `step()` call (60_exceptions.md R186,
R187): each branch of a call, then the statements.
-/

namespace Sys2Proof.Machine

/-! ### The fetch -/

/-- The port masks an address that is masked already to itself. -/
theorem State.memRead_mod (s : State) (a : Nat) : s.memRead (a % 4096) = s.memRead a := by
  rw [State.memRead, State.memRead, Nat.mod_mod]

/-- Settles O7: the lower address holds the high byte, and the port does the masking. -/
theorem fetchIsBigEndianAndMasked : Obligations.FetchIsBigEndianAndMasked := by
  intro s a
  rw [State.memRead_mod, State.memRead_mod, State.fetch16, toNat_wordOfBytes, Nat.mul_comm]

/-- Settles O8: two neighbouring addresses are never masked to one cell, so neither byte is written over. -/
theorem fetchSeesStoredBytes : Obligations.FetchSeesStoredBytes := by
  intro s a hi lo
  have apart : a.toNat % memSize ≠ (a.toNat + 1) % memSize := by simp only [memSize]; omega
  simp only [State.fetch16, State.memRead_memWrite, if_true, if_neg apart]

/-- A word is its two bytes, high byte first. -/
theorem wordOfBytes_extract (w : Word) : wordOfBytes (w.extractLsb' 8 8) (w.extractLsb' 0 8) = w := by
  apply BitVec.eq_of_toNat_eq
  have bound := w.isLt
  rw [toNat_wordOfBytes, BitVec.extractLsb'_toNat, BitVec.extractLsb'_toNat, Nat.shiftRight_eq_div_pow]
  omega

theorem tableBytes_encode (w : Word) : tableBytes 16 w.toNat = [w.extractLsb' 8 8, w.extractLsb' 0 8] := by
  have word : BitVec.ofNat 16 (w.toNat % 2 ^ 16) = w := by
    rw [Nat.mod_eq_of_lt w.isLt, BitVec.ofNat_toNat, BitVec.setWidth_eq]
  simp only [tableBytes, word]

/-- Placing a word at `pc` is two stores into a RUNNING machine with an image. -/
theorem State.withFetchWord_eq (s : State) (w : Word) : s.withFetchWord 16 w.toNat =
    (({ s with loaded := true, waitReg := none, fault := .none, faultWord := 0, faultAddr := 0 } : State).memWrite
      s.pc.toNat (w.extractLsb' 8 8)).memWrite (s.pc.toNat + 1) (w.extractLsb' 0 8) := by
  rw [State.withFetchWord, tableBytes_encode]
  rfl

/-- Settles O9: the two stores are what the next fetch reads. -/
theorem placedInstructionIsFetched : Obligations.PlacedInstructionIsFetched := by
  intro s i wf
  rw [State.withFetchWord_eq]
  refine ⟨rfl, ⟨rfl, rfl⟩, rfl, ?_⟩
  rw [fetchSeesStoredBytes, wordOfBytes_extract]
  exact decodeOfEncodeIsTheInstruction i wf

/-! ### One call -/

/-- A call while PAUSED or HALTED changes nothing (R184, R187). -/
theorem engineStep_of_not_running {s : State} (h : ¬ s.Running) : engineStep s = .next s := by
  rw [← State.engineState_running_iff] at h
  unfold engineStep
  split
  case h_1 | h_2 => rfl
  case h_3 running => exact absurd running h

/-- A call while RUNNING executes what the word at `pc` decodes to. -/
theorem engineStep_of_decode {s : State} {i : Instr} (running : s.Running) (h : decode (s.fetch16 s.pc) = .ok i) :
    engineStep s = exec i s.advance := by
  simp only [engineStep, s.engineState_running_iff.2 running, h]

/-- A call while RUNNING on an undefined word raises `DecodeFailure` with the word and its address. -/
theorem engineStep_of_undefined {s : State} {e : DecodeReject} (running : s.Running)
    (h : decode (s.fetch16 s.pc) = .error e) :
    engineStep s = .next (s.advance.raiseFault .decodeFailure (s.fetch16 s.pc) s.pc) := by
  simp only [engineStep, s.engineState_running_iff.2 running, h]

/-- A step of a loaded machine is one call and what follows it. -/
theorem step_of_loaded {s : State} (loaded : s.loaded = true) : step s = andThen (engineStep s) State.afterCall :=
  if_pos loaded

/-- A step of a machine with no image is the gap. -/
theorem step_of_unloaded {s : State} (unloaded : s.loaded = false) : step s = s.betweenTicks :=
  if_neg (Bool.eq_false_iff.1 unloaded)

theorem State.afterCall_inside {s : State} (h : s.batch + 1 < s.params.stepsPerTick) :
    s.afterCall = .next (s.setBatch (s.batch + 1)) := if_pos h

theorem State.afterCall_last {s : State} (h : ¬ s.batch + 1 < s.params.stepsPerTick) :
    s.afterCall = (s.endTick.setBatch 0).betweenTicks := if_neg h

/-- With no events scheduled the gap changes nothing. -/
theorem State.betweenTicks_of_nil {s : State} (h : s.env = []) : s.betweenTicks = .next s := by
  simp only [State.betweenTicks, h]

/-! ### The statements -/

/-- Settles O10: the call executes the instruction, and counting it is what follows. -/
theorem stepRunsTheDecodedInstruction : Obligations.StepRunsTheDecodedInstruction := by
  intro s i loaded running h
  rw [step_of_loaded loaded, engineStep_of_decode running h]
  exact ⟨rfl, fun _ => rfl⟩

/-- Settles O11: the call advances `pc` and takes the fault, and nothing more. -/
theorem undefinedWordRaisesDecodeFailure : Obligations.UndefinedWordRaisesDecodeFailure := by
  intro s e loaded running h
  have call := engineStep_of_undefined running h
  refine ⟨_, call, by rw [step_of_loaded loaded, call]; rfl, rfl, rfl, rfl, rfl, rfl,
    (State.engineState_halted_iff _).2 FaultStatus.noConfusion, ?_⟩
  exact ((Frame.of_setPc s _).mono_parts (by simp)).trans
    ((Frame.of_raiseFault s.advance _ _ _).mono_parts (by simp))

/-- Settles O12: a machine that is PAUSED or HALTED is not RUNNING, so the call does nothing and is only counted. -/
theorem pausedOrHaltedCallChangesNothing : Obligations.PausedOrHaltedCallChangesNothing := by
  intro s stopped
  have call : engineStep s = .next s := engineStep_of_not_running fun ⟨noFault, noWait⟩ =>
    stopped.elim (fun fault => fault noFault) fun wait => wait noWait
  have counted : s.loaded = true → step s = s.afterCall := fun loaded => by rw [step_of_loaded loaded, call]; rfl
  exact ⟨call, counted, fun loaded inside => (counted loaded).trans (State.afterCall_inside inside)⟩

/-- Settles O13: without an image neither the tick nor the step makes a call. -/
theorem unloadedTickDoesNothing : Obligations.UnloadedTickDoesNothing := fun _ unloaded =>
  ⟨if_neg (Bool.eq_false_iff.1 unloaded), step_of_unloaded unloaded,
    fun noEvents => (step_of_unloaded unloaded).trans (State.betweenTicks_of_nil noEvents)⟩

end Sys2Proof.Machine
end

section
/-!
PROOFS. The tick and its steps (60_exceptions.md R200; log 22): a call always completes, keeps what only the tick's end
and the gap change, and does not read the position in the tick; so the counted calls are the batch.
-/

namespace Sys2Proof.Machine

/-! ### Calls -/

theorem Part.same_trans {p : Part} {s t u : State} (h : p.Same s t) (h' : p.Same t u) : p.Same s u := by
  cases p <;> simp_all [Part.Same]

/-- A call completes in a next state and leaves the parts that no instruction writes. -/
theorem engineStep_completes (s : State) :
    ∃ t, engineStep s = .next t ∧ ∀ p ∈ neverWritten, p.Same s t := by
  by_cases running : s.Running
  · cases h : decode (s.fetch16 s.pc) with
    | ok i =>
      obtain ⟨t, next, _⟩ := exec_frame i s.advance
      refine ⟨t, (engineStep_of_decode running h).trans next, fun p mem => ?_⟩
      have same := Part.same_of_neverWritten next mem
      fin_cases mem <;> exact same
    | error e =>
      refine ⟨_, engineStep_of_undefined running h, fun p mem => ?_⟩
      fin_cases mem <;> simp [Part.Same]
  · exact ⟨s, engineStep_of_not_running running, fun p _ => (Frame.refl [] [] s).2 p List.not_mem_nil⟩

theorem Part.same_of_engineStep {s t : State} (h : engineStep s = .next t) {p : Part} (never : p ∈ neverWritten) :
    p.Same s t := by
  obtain ⟨u, next, same⟩ := engineStep_completes s
  obtain rfl : u = t := Host.Outcome.next.inj (next.symm.trans h)
  exact same p never

/-- A call does not read the position in the tick. -/
theorem engineStep_setBatch {s t : State} (h : engineStep s = .next t) (n : Nat) :
    engineStep (s.setBatch n) = .next (t.setBatch n) := by
  by_cases running : s.Running
  · cases word : decode (s.fetch16 s.pc) with
    | ok i =>
      rw [engineStep_of_decode running word] at h
      rw [engineStep_of_decode (s := s.setBatch n) running word, ← State.mapStBatch_setBatch t]
      exact exec_mapStBatch id (fun _ => n) h (.inr rfl)
    | error e =>
      rw [engineStep_of_undefined running word] at h
      cases h
      exact engineStep_of_undefined (s := s.setBatch n) running word
  · rw [engineStep_of_not_running running] at h
    cases h
    exact engineStep_of_not_running running

/-- So does a batch of calls. -/
theorem engineSteps_completes (k : Nat) (s : State) :
    ∃ t, engineSteps k s = .next t ∧ ∀ p ∈ neverWritten, p.Same s t := by
  induction k generalizing s with
  | zero => exact ⟨s, rfl, fun p _ => (Frame.refl [] [] s).2 p List.not_mem_nil⟩
  | succ k ih =>
    obtain ⟨u, call, same⟩ := engineStep_completes s
    obtain ⟨t, calls, same'⟩ := ih u
    exact ⟨t, by rw [engineSteps, call]; exact calls, fun p mem => Part.same_trans (same p mem) (same' p mem)⟩

/-! ### What follows the batch -/

theorem State.setBatch_self {s : State} {n : Nat} (h : s.batch = n) : s.setBatch n = s := by
  subst h
  rfl

/-- The timers count while the engine is RUNNING (R200). -/
theorem State.timerPhase_of_running {s : State} (h : s.Running) : s.timerPhase = s.tickTimers := if_pos h

/-- A tick's end on a RUNNING engine. -/
theorem State.endTick_of_running {s : State} (h : s.Running) : s.endTick = s.tickTimers.outputPhase := by
  rw [State.endTick, State.timerPhase_of_running h]

/-- A tick's end on a PAUSED or HALTED engine. -/
theorem State.endTick_of_not_running {s : State} (h : ¬ s.Running) : s.endTick = s.outputPhase := by
  rw [State.endTick, State.timerPhase_of_not_running h]

@[simp] theorem State.endTick_loaded (s : State) : s.endTick.loaded = s.loaded := by
  by_cases running : s.Running
  · rw [State.endTick_of_running running]
    rfl
  · rw [State.endTick_of_not_running running]
    rfl

/-- A tick's end does not read the position in the tick. -/
theorem State.endTick_setBatch (s : State) (n : Nat) : (s.setBatch n).endTick = s.endTick.setBatch n := by
  by_cases running : s.Running
  · rw [State.endTick_of_running running, State.endTick_of_running (s := s.setBatch n) running]
    rfl
  · rw [State.endTick_of_not_running running, State.endTick_of_not_running (s := s.setBatch n) running]
    rfl

@[simp] theorem State.endTick_batch (s : State) : s.endTick.batch = s.batch :=
  (congrArg State.batch (s.endTick_setBatch s.batch)).trans rfl

/-- The rest of a tick after its batch: its end, the position back at 0, and the gap. -/
def State.afterBatch (s : State) : StepOutcome := (s.endTick.setBatch 0).betweenTicks

theorem State.afterBatch_setBatch (s : State) (n : Nat) : (s.setBatch n).afterBatch = s.afterBatch := by
  rw [State.afterBatch, State.endTick_setBatch]
  rfl

/-! ### The steps of a tick -/

theorem andThen_next (o : StepOutcome) : andThen o .next = o := by
  cases o <;> rfl

section run
variable {M : Host.Core} {k : Nat} {s : M.State}

theorem run_succ_of_next {t : M.State} (h : M.step s = .next t) : M.run (k + 1) s = M.run k t := by
  rw [Host.Core.run, h]

theorem run_succ_of_fault {r : M.Fault} (h : M.step s = .fault r) : M.run (k + 1) s = .fault r := by
  rw [Host.Core.run, h]

theorem run_succ_of_refused {r : M.Refusal} (h : M.step s = .refused r) : M.run (k + 1) s = .refused r := by
  rw [Host.Core.run, h]

end run

/-- The host's run of the machine, at the machine's own types. -/
def runSteps (k : Nat) (s : State) : StepOutcome := core.run k s

theorem runSteps_succ (k : Nat) (s : State) : runSteps (k + 1) s = andThen (step s) (runSteps k) := by
  cases h : step s with
  | next t => exact run_succ_of_next (M := core) h
  | fault r => exact run_succ_of_fault (M := core) h
  | refused r => exact run_succ_of_refused (M := core) h

theorem andThen_engineSteps_setBatch (k n : Nat) (s : State) :
    andThen (engineSteps k (s.setBatch n)) State.afterBatch = andThen (engineSteps k s) State.afterBatch := by
  induction k generalizing s with
  | zero => exact s.afterBatch_setBatch n
  | succ k ih =>
    obtain ⟨t, call, _⟩ := engineStep_completes s
    rw [engineSteps, engineSteps, engineStep_setBatch call n, call]
    exact ih t

/-- From any position in a tick the steps left of it are the calls left of its batch and the rest of the tick. -/
theorem runSteps_rest_of_tick (k : Nat) (s : State) (loaded : s.loaded = true)
    (position : s.batch + (k + 1) = s.params.stepsPerTick) :
    runSteps (k + 1) s = andThen (engineSteps (k + 1) s) State.afterBatch := by
  induction k generalizing s with
  | zero =>
    obtain ⟨t, call, same⟩ := engineStep_completes s
    have batch : t.batch = s.batch := same .batch (by decide)
    have params : t.params = s.params := same .params (by decide)
    have last : ¬ t.batch + 1 < t.params.stepsPerTick := by rw [batch, params]; omega
    calc runSteps 1 s = andThen (step s) .next := runSteps_succ 0 s
      _ = t.afterCall := by rw [andThen_next, step_of_loaded loaded, call]; rfl
      _ = t.afterBatch := State.afterCall_last last
      _ = andThen (engineSteps 1 s) State.afterBatch := by rw [engineSteps, call]; rfl
  | succ k ih =>
    obtain ⟨t, call, same⟩ := engineStep_completes s
    have batch : t.batch = s.batch := same .batch (by decide)
    have params : t.params = s.params := same .params (by decide)
    have loaded' : t.loaded = true := (same .loadedBit (by decide)).trans loaded
    have inside : t.batch + 1 < t.params.stepsPerTick := by rw [batch, params]; omega
    have counted : step s = .next (t.setBatch (t.batch + 1)) := by
      rw [step_of_loaded loaded, call]; exact State.afterCall_inside inside
    calc runSteps (k + 2) s = runSteps (k + 1) (t.setBatch (t.batch + 1)) := by rw [runSteps_succ, counted]; rfl
      _ = andThen (engineSteps (k + 1) (t.setBatch (t.batch + 1))) State.afterBatch :=
        ih _ loaded' (by simp only [State.setBatch_batch, State.setBatch_params, batch, params]; omega)
      _ = andThen (engineSteps (k + 1) t) State.afterBatch := andThen_engineSteps_setBatch _ _ t
      _ = andThen (engineSteps (k + 2) s) State.afterBatch := by rw [engineSteps.eq_2 s, call]; rfl

/-- Settles O14: the steps of a tick are its batch and the rest of the tick, and the position is back at 0 as it was. -/
theorem tickIsItsSteps : Obligations.TickIsItsSteps := by
  intro s loaded start positive
  obtain ⟨k, size⟩ := Nat.exists_eq_add_of_le' positive
  obtain ⟨t, calls, same⟩ := engineSteps_completes s.params.stepsPerTick s
  have batch : t.endTick.batch = 0 := (State.endTick_batch t).trans ((same .batch (by decide)).trans start)
  have whole : runSteps s.params.stepsPerTick s = andThen (engineSteps s.params.stepsPerTick s) State.afterBatch := by
    rw [size]
    exact runSteps_rest_of_tick k s loaded (by omega)
  change _ = runSteps _ _
  rw [whole, tick, if_pos loaded, calls]
  exact congrArg State.betweenTicks (State.setBatch_self batch).symm

end Sys2Proof.Machine
end

section
/-!
PROOFS. Canonical memory (log 27) is determined by what it reads, and the values of the machine after `reset`
(10_state.md R33, 70_reset_and_hazards.md R220).
-/

namespace Sys2Proof.Machine

/-! ### Canonical memory -/

/-- An address below all that are listed reads as its reset contents. -/
theorem Memory.read_of_below {font : List Byte} {m : Memory} {a : Nat} (below : ∀ c ∈ m, a < c.1) :
    m.read font a = resetByte font a := by
  induction m with
  | nil => rfl
  | cons c m ih =>
    have ne : a ≠ c.1 := (below c List.mem_cons_self).ne
    rw [Memory.read, if_neg ne, ih fun d mem => below d (List.mem_cons_of_mem _ mem)]

theorem Memory.read_cons_self (font : List Byte) (a : Nat) (u : Byte) (m : Memory) :
    Memory.read font ((a, u) :: m) a = u := if_pos rfl

theorem Memory.read_cons_ne {font : List Byte} {a c : Nat} (u : Byte) (m : Memory) (h : c ≠ a) :
    Memory.read font ((a, u) :: m) c = Memory.read font m c := if_neg h

/-- The first listed address of a canonical memory is below all that follow it. -/
theorem Memory.wf_cons_iff {font : List Byte} {a : Nat} {u : Byte} {m : Memory} :
    Memory.wf font ((a, u) :: m) ↔
      (∀ c ∈ m, a < c.1) ∧ (a < memSize ∧ u ≠ resetByte font a) ∧ Memory.wf font m := by
  simp only [Memory.wf, List.pairwise_cons, List.forall_mem_cons]
  tauto

/-- What a canonical memory lists first, another that reads the same lists too: it cannot begin later. -/
theorem Memory.not_all_above {font : List Byte} {a : Nat} {u : Byte} {m n : Memory}
    (hm : Memory.wf font ((a, u) :: m))
    (same : ∀ c < memSize, Memory.read font ((a, u) :: m) c = Memory.read font n c) : ¬ ∀ c ∈ n, a < c.1 := by
  intro above
  obtain ⟨_, ⟨inMemory, listed⟩, _⟩ := Memory.wf_cons_iff.1 hm
  have read := same a inMemory
  rw [Memory.read_cons_self, Memory.read_of_below above] at read
  exact listed read

/-- Settles O16: by induction on both lists, whose heads are the lowest address that reads other than at reset. -/
theorem equalReadingsAreEqualMemories : Obligations.EqualReadingsAreEqualMemories := by
  intro font m
  induction m with
  | nil =>
    intro n _ hn same
    cases n with
    | nil => rfl
    | cons d n => exact absurd (by simp) (Memory.not_all_above (n := []) hn fun c hc => (same c hc).symm)
  | cons c m ih =>
    intro n hm hn same
    cases n with
    | nil => exact absurd (by simp) (Memory.not_all_above hm same)
    | cons d n =>
      obtain ⟨a, u⟩ := c
      obtain ⟨b, w⟩ := d
      obtain ⟨below, ⟨inMemory, _⟩, hm'⟩ := Memory.wf_cons_iff.1 hm
      obtain ⟨below', _, hn'⟩ := Memory.wf_cons_iff.1 hn
      have noLess : ¬ a < b := fun less => Memory.not_all_above hm same
        (List.forall_mem_cons.2 ⟨less, fun c mem => less.trans (below' c mem)⟩)
      have noGreater : ¬ b < a := fun less => Memory.not_all_above hn (fun c hc => (same c hc).symm)
        (List.forall_mem_cons.2 ⟨less, fun c mem => less.trans (below c mem)⟩)
      obtain rfl : a = b := by omega
      have byte := same a inMemory
      rw [Memory.read_cons_self, Memory.read_cons_self] at byte
      have tails : m = n := by
        refine ih n hm' hn' fun c hc => ?_
        by_cases h : c = a
        · rw [h, Memory.read_of_below below, Memory.read_of_below below']
        · have rest := same c hc
          rwa [Memory.read_cons_ne _ _ h, Memory.read_cons_ne _ _ h] at rest
      rw [byte, tails]

/-! ### The values after reset -/

theorem State.getV_init (p : Params) (q : Reg) : (State.init p).getV q = 0 := by
  simp [State.getV, State.init]

/-- Settles O18: `reset` writes each value, and above the font the reset contents are zero. -/
theorem resetValues : Obligations.ResetValues := by
  refine ⟨fun s => ?_, rfl, rfl, fun a above inMemory => ?_, rfl, rfl, rfl, rfl, rfl⟩
  · exact ⟨State.getV_init s.params, rfl, rfl, rfl, rfl, rfl, rfl, rfl, rfl, rfl, rfl, rfl, Display.cell_clear, rfl,
      Display.cell_clear, rfl, rfl⟩
  · change resetByte Config.defaultFont (a % memSize) = 0
    rw [Nat.mod_eq_of_lt inMemory, resetByte, if_neg (Nat.not_lt.2 above)]

end Sys2Proof.Machine
end

section
/-!
PROOFS. The key press (60_exceptions.md R191, R193), the timers and the outputs at a tick's end (R198 to R200).
-/

namespace Sys2Proof.Machine

/-! ### Key presses -/

/-- Settles O47: only a wait on a machine without a fault takes a key. -/
theorem keyPressWithoutWaitIsDiscarded : Obligations.KeyPressWithoutWaitIsDiscarded := by
  intro k s noWait
  rcases s.keyPress_cases k with ⟨x, noFault, wait, _⟩ | ⟨_, same⟩
  · rw [noFault, wait] at noWait
    simp at noWait
  · exact same

/-- After a key press a further one finds no wait. -/
theorem State.keyPress_keyPress (s : State) (k k' : Key) : (s.keyPress k).keyPress k' = s.keyPress k := by
  apply keyPressWithoutWaitIsDiscarded
  rcases s.keyPress_cases k with ⟨x, _, _, eq⟩ | ⟨noWait, same⟩
  · rw [eq]
    exact .inr rfl
  · rwa [same]

/-- Settles O48: by induction on the further presses. -/
theorem onlyTheFirstKeyPressCounts : Obligations.OnlyTheFirstKeyPressCounts := by
  intro k ks s
  induction ks with
  | nil => rfl
  | cons k' ks ih =>
    calc State.applyEvents ((k :: k' :: ks).map Event.keyPress) s
      _ = State.applyEvents (ks.map Event.keyPress) ((s.keyPress k).keyPress k') := rfl
      _ = State.applyEvents ((k :: ks).map Event.keyPress) s := by rw [State.keyPress_keyPress]; rfl
      _ = .next (s.keyPress k) := ih

/-! ### The timers -/

/-- A timer's decrement is floored at 0 (R198). -/
theorem toNat_decTimer (b : Byte) : (decTimer b).toNat = b.toNat - 1 := by
  unfold decTimer
  split
  case isTrue positive =>
    have bound := b.isLt
    have one : (1 : Byte).toNat = 1 := rfl
    rw [BitVec.toNat_sub, one]
    omega
  case isFalse => omega

/-- A count of the timers changes the timers alone. -/
theorem Frame.of_tickTimers (s : State) : Frame [] [.delayTimer, .soundTimer] s s.tickTimers :=
  ⟨fun q _ => s.tickTimers_getV q, fun p hp => by cases p <;> simp_all [Part.Same]⟩

theorem State.tickTimers_iterate (n : Nat) (s : State) : (State.tickTimers^[n] s).dt.toNat = s.dt.toNat - n ∧
    (State.tickTimers^[n] s).st.toNat = s.st.toNat - n := by
  induction n with
  | zero => exact ⟨rfl, rfl⟩
  | succ n ih =>
    rw [Function.iterate_succ_apply', State.tickTimers_dt, State.tickTimers_st, toNat_decTimer, toNat_decTimer,
      ih.1, ih.2]
    exact ⟨Nat.sub_sub _ _ _, Nat.sub_sub _ _ _⟩

/-- The writers of the delay timer and of the sound timer in the access summary. -/
theorem timer_not_mem_writtenParts (i : Instr) : ((∀ x, i ≠ .ldDtVx x) → Part.delayTimer ∉ writtenParts i) ∧
    ((∀ x, i ≠ .ldStVx x) → Part.soundTimer ∉ writtenParts i) := by
  cases i <;> simp [writtenParts]

/-- Settles O53: each clause is a law of the decrement, of the access summary, or of a tick's end. -/
theorem timersCountDownToZero : Obligations.TimersCountDownToZero := by
  refine ⟨fun s => ⟨toNat_decTimer s.dt, toNat_decTimer s.st, Frame.of_tickTimers s⟩,
    State.tickTimers_iterate, ?_, fun s => ⟨rfl, rfl⟩, fun s => ⟨fun running => ?_, fun waiting => ?_⟩⟩
  · intro i s t h
    obtain ⟨delay, sound⟩ := timer_not_mem_writtenParts i
    exact ⟨fun other => Part.same_of_exec h (delay other), fun other => Part.same_of_exec h (sound other)⟩
  · rw [State.endTick_of_running running]
    exact ⟨rfl, rfl⟩
  · rw [State.endTick_of_not_running fun running => waiting running.2]
    exact ⟨rfl, rfl⟩

/-! ### The outputs -/

theorem State.soundActive_iff (s : State) : s.soundActive = true ↔ 0 < s.st.toNat := decide_eq_true_iff

/-- A load that answers a state finds no image, and copies one or changes nothing. -/
theorem State.loadImage_cases {s t : State} {image : List Byte} (h : s.loadImage image = .next t) :
    s.loaded = false ∧ (t = (s.memWriteList progBase image).setLoaded true ∨ t = s) := by
  cases loaded : s.loaded with
  | true => rw [State.loadImage_of_loaded image loaded] at h; cases h
  | false =>
    refine ⟨rfl, ?_⟩
    rcases le_or_gt image.length progMax with fits | long
    · rw [State.loadImage_of_fits loaded fits] at h; cases h; exact .inl rfl
    · rw [State.loadImage_of_too_long loaded long] at h; cases h; exact .inr rfl

/-- An event other than reset leaves both outputs. -/
theorem Part.outputs_same_of_applyEvent {s t : State} {e : Event} (notReset : e ≠ .reset)
    (h : s.applyEvent e = .next t) : Part.outputs.Same s t := by
  cases e with
  | keyPress k =>
    cases h
    rcases s.keyPress_cases k with ⟨x, _, _, eq⟩ | ⟨_, eq⟩ <;> rw [eq] <;> exact ⟨rfl, rfl⟩
  | setKeys levels => cases h; exact ⟨rfl, rfl⟩
  | load image =>
    rcases (State.loadImage_cases h).2 with rfl | rfl
    · exact ⟨s.memWriteList_soundOut _ _, s.memWriteList_frame _ _⟩
    · exact ⟨rfl, rfl⟩
  | reset => exact absurd rfl notReset

/-- Settles O54: the outputs are taken after the timers, which count only on a RUNNING engine. -/
theorem soundOutputFollowsTheTimer : Obligations.SoundOutputFollowsTheTimer := by
  refine ⟨fun s => ?_, fun s t h => Part.same_of_engineStep h (p := .outputs) (by decide),
    fun e s t notReset h => Part.outputs_same_of_applyEvent notReset h⟩
  by_cases running : s.Running
  · rw [State.endTick_of_running running]
    refine ⟨State.soundActive_iff _, fun _ => ?_, fun stopped => absurd running stopped, rfl, rfl⟩
    rw [State.outputPhase_soundOut, State.soundActive_iff, State.tickTimers_st, toNat_decTimer]
    omega
  · rw [State.endTick_of_not_running running]
    exact ⟨State.soundActive_iff _, fun h => absurd h running, fun _ => rfl, rfl, rfl⟩

end Sys2Proof.Machine
end

section
/-!
PROOFS. The engine's states (60_exceptions.md R184, R185): which instructions fault, what a HALTED machine keeps, and
the transitions.
-/

namespace Sys2Proof.Machine

/-! ### Which instructions fault -/

/-- In state `s` the instruction takes the fault. -/
inductive Raises (s : State) : Instr → FaultStatus → Prop
  | sys (nnn : Addr12) : Raises s (.sys nnn) .decodeFailure
  | ret (empty : s.stack = []) : Raises s .ret .stackUnderflow
  | call (nnn : Addr12) (full : s.params.stackDepth = some s.stack.length) : Raises s (.call nnn) .stackOverflow

theorem Raises.ne_none {s : State} {i : Instr} {f : FaultStatus} (h : Raises s i f) : f ≠ .none := by
  cases h <;> exact FaultStatus.noConfusion

/-- A faulting instruction only takes its fault, with its own word and address. -/
theorem Raises.exec {s : State} {i : Instr} {f : FaultStatus} (h : Raises s i f) :
    exec i s = .next (s.raiseFault f (encode i) s.instrAddr) := by
  cases h with
  | sys nnn => exact exec_sys nnn s
  | ret empty => exact exec_ret_of_nil empty
  | call nnn full => exact exec_call_of_full nnn full

/-- The instructions with a fault in their row of the access summary. -/
theorem faultLatches_mem_writtenParts {i : Instr} (h : .faultLatches ∈ writtenParts i) :
    (∃ nnn, i = .sys nnn) ∨ i = .ret ∨ ∃ nnn, i = .call nnn := by
  cases i <;> simp [writtenParts] at h ⊢

/-- An instruction that does not fault leaves the fault and its latches. -/
theorem faultLatches_same_of_not_raises {s t : State} {i : Instr} (noFault : ∀ f, ¬ Raises s i f)
    (h : exec i s = .next t) : Part.faultLatches.Same s t := by
  by_cases row : .faultLatches ∈ writtenParts i
  · rcases faultLatches_mem_writtenParts row with ⟨nnn, rfl⟩ | rfl | ⟨nnn, rfl⟩
    · exact absurd (.sys nnn) (noFault _)
    · obtain ⟨empty, _⟩ | ⟨a, l, _, rfl⟩ := exec_ret_cases h
      · exact absurd (.ret empty) (noFault _)
      · exact ⟨rfl, rfl, rfl⟩
    · obtain ⟨full, _⟩ | ⟨_, rfl⟩ := exec_call_cases h
      · exact absurd (.call nnn full) (noFault _)
      · exact ⟨rfl, rfl, rfl⟩
  · exact Part.same_of_exec h row

/-- On a machine without a fault an instruction records one exactly when it raises it. -/
theorem fault_ne_none_iff_raises {s t : State} {i : Instr} (clear : s.fault = .none) (h : exec i s = .next t) :
    t.fault ≠ .none ↔ ∃ f, Raises s i f := by
  constructor
  · intro faulted
    by_contra noFault
    have same := faultLatches_same_of_not_raises (not_exists.1 noFault) h
    exact faulted (same.1.trans clear)
  · rintro ⟨f, raises⟩
    rw [raises.exec] at h
    cases h
    exact raises.ne_none

theorem exists_raises_iff {s : State} {i : Instr} : (∃ f, Raises s i f) ↔
    (∃ nnn, i = .sys nnn) ∨ (i = .ret ∧ s.stack = []) ∨
      ((∃ nnn, i = .call nnn) ∧ s.params.stackDepth = some s.stack.length) := by
  constructor
  · rintro ⟨f, raises⟩
    cases raises with
    | sys nnn => exact .inl ⟨nnn, rfl⟩
    | ret empty => exact .inr (.inl ⟨rfl, empty⟩)
    | call nnn full => exact .inr (.inr ⟨⟨nnn, rfl⟩, full⟩)
  · rintro (⟨nnn, rfl⟩ | ⟨rfl, empty⟩ | ⟨⟨nnn, rfl⟩, full⟩)
    · exact ⟨_, .sys nnn⟩
    · exact ⟨_, .ret empty⟩
    · exact ⟨_, .call nnn full⟩

/-! ### A HALTED machine -/

/-- What a HALTED machine may change. -/
def haltedParts : List Part := [.batch, .outputs, .inputs]

section frames
variable (s : State)

theorem Frame.of_setKeys (levels : BitVec 16) : Frame [] [.inputs] s (s.setKeys levels) :=
  ⟨fun q _ => s.setKeys_getV levels q, fun p hp => by cases p <;> simp_all [Part.Same]⟩

theorem Frame.of_setEnv (env : List (List Event)) : Frame [] [.inputs] s (s.setEnv env) :=
  ⟨fun q _ => s.setEnv_getV env q, fun p hp => by cases p <;> simp_all [Part.Same]⟩

theorem Frame.of_setBatch (n : Nat) : Frame [] [.batch] s (s.setBatch n) :=
  ⟨fun q _ => s.setBatch_getV n q, fun p hp => by cases p <;> simp_all [Part.Same]⟩

theorem Frame.of_outputPhase : Frame [] [.outputs] s s.outputPhase :=
  ⟨fun q _ => s.outputPhase_getV q, fun p hp => by cases p <;> simp_all [Part.Same]⟩

end frames

section halted
variable {s t : State} (loaded : s.loaded = true) (halted : s.fault ≠ .none)
include loaded halted

/-- Of the events only reset and new key levels do anything to a HALTED machine, and a load is refused. -/
theorem Frame.of_applyEvent_halted {e : Event} (notReset : e ≠ .reset) (h : s.applyEvent e = .next t) :
    Frame [] haltedParts s t := by
  cases e with
  | keyPress k =>
    cases h
    rw [keyPressWithoutWaitIsDiscarded k s (.inl halted)]
    exact Frame.refl _ _ s
  | setKeys levels => cases h; exact (Frame.of_setKeys s levels).mono_parts (by simp [haltedParts])
  | load image => exact absurd (State.loadImage_cases h).1 (by rw [loaded]; decide)
  | reset => exact absurd rfl notReset

theorem Frame.of_applyEvents_halted {es : List Event} (noReset : .reset ∉ es)
    (h : State.applyEvents es s = .next t) : Frame [] haltedParts s t := by
  induction es generalizing s with
  | nil => cases h; exact Frame.refl _ _ _
  | cons e es ih =>
    obtain ⟨u, first, rest⟩ := andThen_eq_next h
    have frame := Frame.of_applyEvent_halted loaded halted (fun eq => noReset (eq ▸ List.mem_cons_self)) first
    have loaded' : u.loaded = true := (frame.2 .loadedBit (by decide)).trans loaded
    have halted' : u.fault ≠ .none := (frame.2 .faultLatches (by decide)).1.symm ▸ halted
    exact frame.trans (ih loaded' halted' (fun mem => noReset (List.mem_cons_of_mem _ mem)) rest)

theorem Frame.of_betweenTicks_halted (noReset : ∀ es ∈ s.env.head?, Event.reset ∉ es)
    (h : s.betweenTicks = .next t) : Frame [] haltedParts s t := by
  unfold State.betweenTicks at h
  split at h
  case h_1 => cases h; exact Frame.refl _ _ s
  case h_2 es later env =>
    have noReset' : Event.reset ∉ es := noReset es (by rw [env]; rfl)
    exact ((Frame.of_setEnv s later).mono_parts (by simp [haltedParts])).trans
      (Frame.of_applyEvents_halted (s := s.setEnv later) loaded halted noReset' h)

end halted

/-- Settles O55: the call does nothing, the tick's end only takes the outputs, and the gap only changes the inputs. -/
theorem haltedMachineStaysHalted : Obligations.HaltedMachineStaysHalted := by
  intro s t loaded halted noReset h
  have notRunning : ¬ s.Running := fun running => halted running.1
  have frame : Frame [] haltedParts s t := by
    rw [step_of_loaded loaded, engineStep_of_not_running notRunning] at h
    change s.afterCall = _ at h
    by_cases inside : s.batch + 1 < s.params.stepsPerTick
    · rw [State.afterCall_inside inside] at h
      cases h
      exact (Frame.of_setBatch s _).mono_parts (by simp [haltedParts])
    · rw [State.afterCall_last inside, State.endTick_of_not_running notRunning] at h
      exact (((Frame.of_outputPhase s).mono_parts (by simp [haltedParts])).trans
        ((Frame.of_setBatch s.outputPhase 0).mono_parts (by simp [haltedParts]))).trans
        (Frame.of_betweenTicks_halted (s := s.outputPhase.setBatch 0) loaded halted noReset h)
  refine ⟨?_, frame⟩
  rw [State.engineState_halted_iff, (frame.2 .faultLatches (by decide)).1]
  exact halted

/-! ### The transitions -/

/-- The engine's state is read off the fault and the wait. -/
theorem State.engineState_congr {s t : State} (fault : t.fault = s.fault) (wait : t.waitReg = s.waitReg) :
    t.engineState = s.engineState := by
  simp only [State.engineState, fault, wait]

theorem State.endTick_engineState (s : State) : s.endTick.engineState = s.engineState := by
  by_cases running : s.Running
  · rw [State.endTick_of_running running]; rfl
  · rw [State.endTick_of_not_running running]; rfl

/-- From RUNNING only `LD Vx, K` leads to PAUSED: it sets the wait, and no other instruction does. -/
theorem paused_of_exec_iff {s t : State} {i : Instr} (running : s.Running) (h : exec i s = .next t) :
    t.engineState = .paused ↔ ∃ x, i = .ldVxK x := by
  rw [State.engineState_paused_iff]
  constructor
  · rintro ⟨_, waiting⟩
    have row := mem_writtenParts (p := .waitRegister) h fun same => waiting (same.trans running.2)
    clear h
    cases i <;> simp [writtenParts] at row ⊢
  · rintro ⟨x, rfl⟩
    cases h
    exact ⟨running.1, Option.some_ne_none x⟩

/-- Settles O56: an instruction pauses by setting the wait and halts by raising a fault; the events and a tick's end
touch neither, but for a key press, which ends the wait, and reset. -/
theorem engineStateTransitions : Obligations.EngineStateTransitions := by
  refine ⟨fun i s t running h => ?_, fun k s paused => ?_, fun s => rfl, fun s t stopped h => ?_,
    fun s levels => ⟨rfl, s.endTick_engineState⟩, fun s t image h => ?_⟩
  · rw [State.engineState_running_iff] at running
    exact ⟨paused_of_exec_iff running h, State.engineState_halted_iff t,
      (fault_ne_none_iff_raises running.1 h).trans exists_raises_iff⟩
  · obtain ⟨noFault, waiting⟩ := s.engineState_paused_iff.1 paused
    obtain ⟨x, wait⟩ := Option.ne_none_iff_exists'.1 waiting
    rw [State.keyPress_of_waiting noFault wait k, State.engineState_running_iff]
    exact ⟨noFault, rfl⟩
  · rw [Ne, State.engineState_running_iff] at stopped
    rw [engineStep_of_not_running stopped] at h
    cases h
    rfl
  · rcases (State.loadImage_cases h).2 with rfl | rfl
    · exact State.engineState_congr (s.memWriteList_fault _ _) (s.memWriteList_waitReg _ _)
    · rfl

end Sys2Proof.Machine
end

section
/-!
PROOFS. The machine's invariant: a state without a fault has few clauses to meet, taking a fault meets the others, and
each part of a step keeps it: the call, what follows the call, and each event of the gap.
-/

namespace Sys2Proof.Machine

/-! ### States without a fault -/

/-- No fault is recorded and both latches are 0. -/
def State.LatchesClear (s : State) : Prop := s.fault = .none ∧ s.faultWord = 0 ∧ s.faultAddr = 0

/-- A machine with an image is not unloaded. -/
theorem State.absurd_unloaded {s : State} {P : Prop} (loaded : s.loaded = true) (unloaded : s.loaded = false) : P :=
  absurd (loaded.symm.trans unloaded) (by decide)

/-- Without a fault the clauses on the recorded fault ask nothing. -/
theorem State.Inv.of_latchesClear {s : State} (clear : s.LatchesClear) (params : s.params.wf)
    (mem : Memory.wf s.params.font s.mem) (batch : s.batch < s.params.stepsPerTick)
    (depth : ∀ d, s.params.stackDepth = some d → s.stack.length ≤ d)
    (unloaded : s.loaded = false → s = s.resetMachine) : s.Inv := by
  obtain ⟨noFault, latches⟩ := clear
  exact {
    params_wf := params
    mem_wf := mem
    batch_lt := batch
    depth_le := depth
    no_fault_latches := fun _ => latches
    halted_not_waiting := fun fault => absurd noFault fault
    halted_pc := fun fault => absurd noFault fault
    decode_failure := fun fault => FaultStatus.noConfusion (noFault.symm.trans fault)
    underflow := fun fault => FaultStatus.noConfusion (noFault.symm.trans fault)
    overflow := fun fault => FaultStatus.noConfusion (noFault.symm.trans fault)
    unloaded := unloaded }

theorem Memory.wf_nil (font : List Byte) : Memory.wf font [] :=
  ⟨List.Pairwise.nil, fun _ mem => absurd mem List.not_mem_nil⟩

/-- A machine just reset meets the invariant when its parameters are proper. -/
theorem State.inv_resetMachine {s : State} (params : s.params.wf) : s.resetMachine.Inv :=
  State.Inv.of_latchesClear ⟨rfl, rfl, rfl⟩ params (Memory.wf_nil _) params.2 (fun _ _ => Nat.zero_le _)
    fun _ => rfl

/-- Settles O19: the reset state is a machine just reset, with the default parameters. -/
theorem invariantHoldsAtReset : Obligations.InvariantHoldsAtReset :=
  State.inv_resetMachine (s := State.reset) (by decide)

/-! ### Words that fault -/

/-- The latched word is one that raises the fault in the state. -/
def DescribesFault (s : State) (w : Word) : FaultStatus → Prop
  | .none => False
  | .decodeFailure => (∃ e, decode w = .error e) ∨ ∃ nnn, decode w = .ok (.sys nnn)
  | .stackUnderflow => w = 0x00EE ∧ s.stack = []
  | .stackOverflow => (∃ nnn, decode w = .ok (.call nnn)) ∧ s.params.stackDepth = some s.stack.length

/-- A well-formed instruction's word describes the fault that the instruction raises. -/
theorem describesFault_of_raises {s : State} {i : Instr} {f : FaultStatus} (raises : Raises s i f) (wf : i.WellFormed) :
    DescribesFault s (encode i) f := by
  cases raises with
  | sys nnn => exact .inr ⟨nnn, decodeOfEncodeIsTheInstruction _ wf⟩
  | ret empty => exact ⟨rfl, empty⟩
  | call nnn full => exact ⟨⟨nnn, decodeOfEncodeIsTheInstruction _ wf⟩, full⟩

/-! ### RUNNING machines and taking a fault -/

namespace State.Inv

variable {s t : State}

theorem latchesClear (h : s.Inv) (running : s.Running) : s.LatchesClear :=
  ⟨running.1, h.no_fault_latches running.1⟩

/-- An unloaded machine is as reset left it, so it has no fault and waits for no key. -/
theorem running_of_unloaded (h : s.Inv) (unloaded : s.loaded = false) : s.Running := by
  have asReset : s = s.resetMachine := h.unloaded unloaded
  rw [asReset]
  exact ⟨rfl, rfl⟩

theorem advance (h : s.Inv) (running : s.Running) (loaded : s.loaded = true) : s.advance.Inv :=
  of_latchesClear (s := s.advance) (h.latchesClear running) h.params_wf h.mem_wf h.batch_lt h.depth_le
    (State.absurd_unloaded loaded)

/-- A RUNNING machine that takes a fault from the instruction before `pc` keeps the invariant. -/
theorem raiseFault (h : s.Inv) (running : s.Running) (loaded : s.loaded = true) {f : FaultStatus} {w a : Word}
    (pc : s.pc = a + 2) (word : DescribesFault s w f) : (s.raiseFault f w a).Inv where
  params_wf := h.params_wf
  mem_wf := h.mem_wf
  batch_lt := h.batch_lt
  depth_le := h.depth_le
  no_fault_latches := by rintro rfl; exact word.elim
  halted_not_waiting := fun _ => running.2
  halted_pc := fun _ => pc
  decode_failure := by rintro rfl; exact word
  underflow := by rintro rfl; exact word
  overflow := by rintro rfl; exact word
  unloaded := State.absurd_unloaded loaded

end State.Inv

/-! ### The call -/

/-- An instruction leaves memory as data, or stores bytes in it. -/
theorem mem_of_exec {i : Instr} {s t : State} (h : exec i s = .next t) :
    t.mem = s.mem ∨ ∃ a bs, t.mem = (s.memWriteList a bs).mem := by
  cases i with
  | ret => obtain ⟨_, rfl⟩ | ⟨a, l, _, rfl⟩ := exec_ret_cases h <;> exact .inl rfl
  | call nnn => obtain ⟨_, rfl⟩ | ⟨_, rfl⟩ := exec_call_cases h <;> exact .inl rfl
  | ldB _ | stRegs _ => cases h; exact .inr ⟨_, _, rfl⟩
  | ldRegs _ => cases h; exact .inl (s.loadRegs_mem _ _)
  | seImm _ _ | sneImm _ _ | seReg _ _ | sneReg _ _ | skp _ | sknp _ => cases h; exact .inl (s.skipIf_mem _)
  | _ => cases h; exact .inl rfl

/-- An instruction keeps memory canonical. -/
theorem wf_mem_of_exec {i : Instr} {s t : State} (h : exec i s = .next t) (wf : Memory.wf s.params.font s.mem) :
    Memory.wf t.params.font t.mem := by
  have params : t.params = s.params := Part.same_of_neverWritten h (p := .params) (by decide)
  rw [params]
  rcases mem_of_exec h with same | ⟨a, bs, stored⟩
  · rwa [same]
  · rw [stored]
    exact State.wf_memWriteList wf a bs

theorem returnStack_mem_writtenParts {i : Instr} (h : .returnStack ∈ writtenParts i) :
    i = .ret ∨ ∃ nnn, i = .call nnn := by
  cases i <;> simp [writtenParts] at h ⊢

/-- An instruction keeps a finite stack within its depth: `CALL` pushes only when there is room. -/
theorem depth_le_of_exec {i : Instr} {s t : State} (h : exec i s = .next t) {d : Nat}
    (finite : s.params.stackDepth = some d) (le : s.stack.length ≤ d) : t.stack.length ≤ d := by
  by_cases row : .returnStack ∈ writtenParts i
  · rcases returnStack_mem_writtenParts row with rfl | ⟨nnn, rfl⟩
    · obtain ⟨_, rfl⟩ | ⟨a, l, stack, rfl⟩ := exec_ret_cases h
      · exact le
      · rw [stack] at le
        exact Nat.le_of_succ_le le
    · obtain ⟨_, rfl⟩ | ⟨room, rfl⟩ := exec_call_cases h
      · exact le
      · have ne : s.stack.length ≠ d := fun eq => room (eq ▸ finite)
        exact Nat.lt_of_le_of_ne le ne
  · have same : t.stack = s.stack := Part.same_of_exec h row
    rwa [same]

namespace State.Inv

variable {s t : State}

/-- A well-formed instruction keeps the invariant of a RUNNING machine with an image: it raises a fault that its word
describes, or leaves no fault recorded. -/
theorem exec {i : Instr} (h : s.Inv) (running : s.Running) (loaded : s.loaded = true) (wf : i.WellFormed)
    (next : Machine.exec i s = .next t) : t.Inv := by
  by_cases faults : ∃ f, Raises s i f
  · obtain ⟨f, raises⟩ := faults
    rw [raises.exec] at next
    cases next
    exact h.raiseFault running loaded s.instrAddr_add_two.symm (describesFault_of_raises raises wf)
  · have params : t.params = s.params := Part.same_of_neverWritten next (p := .params) (by decide)
    have batch : t.batch = s.batch := Part.same_of_neverWritten next (p := .batch) (by decide)
    have loaded' : t.loaded = s.loaded := Part.same_of_neverWritten next (p := .loadedBit) (by decide)
    obtain ⟨fault, word, addr⟩ := faultLatches_same_of_not_raises (not_exists.1 faults) next
    have clear : t.LatchesClear := by
      rw [LatchesClear, fault, word, addr]
      exact h.latchesClear running
    refine of_latchesClear clear (params ▸ h.params_wf) (wf_mem_of_exec next h.mem_wf) ?_ ?_ ?_
    · rw [batch, params]
      exact h.batch_lt
    · rw [params]
      exact fun d finite => depth_le_of_exec next finite (h.depth_le d finite)
    · rw [loaded', loaded]
      exact fun unloaded => absurd unloaded (by decide)

/-- A call keeps the invariant of a machine with an image. -/
theorem engineStep (h : s.Inv) (loaded : s.loaded = true) (call : Machine.engineStep s = .next t) : t.Inv := by
  rcases engineStep_cases call with ⟨_, rfl⟩ | ⟨running, i, word, next⟩ | ⟨running, e, word, rfl⟩
  · exact h
  · exact (h.advance running loaded).exec running loaded (encodeOfDecodeIsTheWord _ i word).1 next
  · exact (h.advance running loaded).raiseFault running loaded rfl (.inl ⟨e, word⟩)

/-! ### What follows a call -/

theorem setBatch (h : s.Inv) (loaded : s.loaded = true) {n : Nat} (inside : n < s.params.stepsPerTick) :
    (s.setBatch n).Inv :=
  { h with
    batch_lt := inside
    unloaded := State.absurd_unloaded loaded }

theorem outputPhase (h : s.Inv) (loaded : s.loaded = true) : s.outputPhase.Inv :=
  { h with unloaded := State.absurd_unloaded loaded }

theorem tickTimers (h : s.Inv) (loaded : s.loaded = true) : s.tickTimers.Inv :=
  { h with unloaded := State.absurd_unloaded loaded }

theorem endTick (h : s.Inv) (loaded : s.loaded = true) : s.endTick.Inv := by
  by_cases running : s.Running
  · rw [State.endTick_of_running running]
    exact (h.tickTimers loaded).outputPhase loaded
  · rw [State.endTick_of_not_running running]
    exact h.outputPhase loaded

/-! ### The events of a gap -/

theorem setEnv (h : s.Inv) (env : List (List Event)) : (s.setEnv env).Inv :=
  { h with unloaded := fun unloaded => congrArg (fun u : State => u.setEnv env) (h.unloaded unloaded) }

theorem setKeys (h : s.Inv) (levels : BitVec 16) : (s.setKeys levels).Inv :=
  { h with unloaded := fun unloaded => congrArg (fun u : State => u.setKeys levels) (h.unloaded unloaded) }

theorem keyPress (h : s.Inv) (k : Key) : (s.keyPress k).Inv := by
  rcases s.keyPress_cases k with ⟨x, noFault, waiting, eq⟩ | ⟨_, eq⟩ <;> rw [eq]
  · have loaded (unloaded : s.loaded = false) : False :=
      Option.some_ne_none x (waiting.symm.trans (h.running_of_unloaded unloaded).2)
    exact of_latchesClear (s := (s.setV x _).setWait none) ⟨noFault, h.no_fault_latches noFault⟩ h.params_wf
      h.mem_wf h.batch_lt h.depth_le fun unloaded => (loaded unloaded).elim
  · exact h

/-- The load of an image into an unloaded machine, which has no fault. -/
theorem loadImage (h : s.Inv) (unloaded : s.loaded = false) (image : List Byte) :
    ((s.memWriteList progBase image).setLoaded true).Inv := by
  have clear := h.latchesClear (h.running_of_unloaded unloaded)
  rw [State.memWriteList_eq]
  exact of_latchesClear (s := State.setLoaded { s with mem := _ } true) clear h.params_wf
    (State.wf_memWriteList h.mem_wf _ _) h.batch_lt h.depth_le fun unloaded => Bool.noConfusion unloaded

theorem applyEvent {e : Event} (h : s.Inv) (event : s.applyEvent e = .next t) : t.Inv := by
  rcases State.applyEvent_cases event with
    ⟨k, rfl⟩ | ⟨levels, rfl⟩ | ⟨unloaded, image, _, rfl⟩ | ⟨_, rfl⟩ | rfl
  · exact h.keyPress k
  · exact h.setKeys levels
  · exact h.loadImage unloaded image
  · exact h
  · exact State.inv_resetMachine h.params_wf

theorem betweenTicks (h : s.Inv) (gap : s.betweenTicks = .next t) : t.Inv :=
  State.betweenTicks_keeps (fun _ env h => h.setEnv env) (fun _ _ _ h event => h.applyEvent event) h gap

theorem afterCall (h : s.Inv) (loaded : s.loaded = true) (next : s.afterCall = .next t) : t.Inv := by
  by_cases inside : s.batch + 1 < s.params.stepsPerTick
  · rw [State.afterCall_inside inside] at next
    cases next
    exact h.setBatch loaded inside
  · rw [State.afterCall_last inside] at next
    have loaded' : s.endTick.loaded = true := s.endTick_loaded.trans loaded
    have ended := h.endTick loaded
    exact (ended.setBatch loaded' ended.params_wf.2).betweenTicks next

end State.Inv

/-- Settles O20: a step of a loaded machine is a call and what follows it, of an unloaded one the gap. -/
theorem stepKeepsTheInvariant : Obligations.StepKeepsTheInvariant := by
  intro s t h next
  cases loaded : s.loaded with
  | true =>
    rw [step_of_loaded loaded] at next
    obtain ⟨u, call, after⟩ := andThen_eq_next next
    have loaded' : u.loaded = s.loaded := Part.same_of_engineStep call (p := .loadedBit) (by decide)
    exact (h.engineStep loaded call).afterCall (loaded'.trans loaded) after
  | false =>
    rw [step_of_unloaded loaded] at next
    exact h.betweenTicks next

end Sys2Proof.Machine
end
